-- ==== Sys2Proof/Word.lean ====
section
/-!
DEFINITION. The word types of EDLINK (spec/00_scope.md R10, R11): bytes on the wire, 32-bit host words, the
16-bit checksum and the 34-bit payload length. No arithmetic of its own: BitVec's is the spec's unsigned
arithmetic modulo 2^N (R12).
-/

namespace Sys2Proof

/-- One byte of the serial link or of PBUF (R10, R70). -/
abbrev Byte := BitVec 8

/-- One word of the host register space (R10). -/
abbrev Word := BitVec 32

/-- The checksum accumulator's width, `CSUM_W` = 16 (R8, R200). -/
abbrev Sum16 := BitVec 16

/-- The exact payload length `LEN34` (R49, R177). -/
abbrev Len34 := BitVec 34

end Sys2Proof
end

