-- ==== Sys2Proof/Config.lean ====
section
/-!
DEFINITION. What an EDLINK implementation fixes: the constants of spec/00_scope.md R8, the parameters R9 leaves
open (a plain record that State carries, so that every statement about a state holds for every choice of them),
and the one free value, the contents of PBUF after power-on (spec/20_memory.md R71).
-/

namespace Sys2Proof.Config

/-- `SEED` (R8, R201): the checksum seed. -/
def seed : Sum16 := 0x1234#16

/-- `TX_SYNC` (R8): the outbound sync marker. -/
def txSync : Byte := 0x3C#8

/-- `RX_SYNC` (R8): the inbound sync marker. -/
def rxSync : Byte := 0x3E#8

/-- `READY_BYTE` (R8, R106). -/
def readyByte : Byte := 0x61#8

/-- `ACK_BYTE` (R8, R106). -/
def ackByte : Byte := 0x5E#8

/-- The mask that decoding applies to a format byte, `~FLAG_MASK` on a byte (R104, R175). -/
def codeMask : Byte := 0xCF#8

/-- `CHUNK` (R8): payload bytes in a full chunk. -/
def chunk : Nat := 8

/-- `OUT_HDR_LEN` (R8): bytes of the outbound header, sync byte included. -/
def outHdrLen : Nat := 7

/-- `IN_HDR_LEN` (R8): bytes of the inbound header after its sync byte. -/
def inHdrLen : Nat := 6

/-- The first offset of the PBUF window (R72). -/
def windowBase : Nat := 0x1000

/-- The byte that PBUF holds at an offset after the `draw`-th power-on, until something writes it (R71, I1).
A FREE VALUE: it has no body, so no proof can see what it is. -/
opaque powerOnByte (draw offset : Nat) : Byte

end Sys2Proof.Config

namespace Sys2Proof

/-- The parameters the source leaves open (R9). They never change while the machine runs. -/
structure Params where
  /-- `PBUF_BYTES`: the payload buffer's size in bytes. -/
  pbufBytes : Nat
  /-- `CHUNK_GAP_RESET`: GAP after reset, in ticks. -/
  chunkGapReset : Word
  /-- `TICK_MS`: nominal milliseconds of a tick; no rule reads it. -/
  tickMs : Nat
  /-- `DL_RESET`: the four deadline registers after reset, in ticks. -/
  dlReset : Word
  /-- `HOST_ADDR_W`: the width of a host byte offset. -/
  hostAddrW : Nat
  deriving DecidableEq, Repr

/-- The spec's defaults (R9, last table of spec/92_eei_decisions.md). -/
def Params.default : Params where
  pbufBytes := 4096
  chunkGapReset := 1#32
  tickMs := 1
  dlReset := 1000#32
  hostAddrW := 32

/-- The constraints of R9 on the parameters. -/
abbrev Params.wf (p : Params) : Prop :=
  p.pbufBytes % 4 = 0 ∧ 4 ≤ p.pbufBytes ∧ p.pbufBytes ≤ 2 ^ 31 ∧ 0 < p.tickMs ∧
    Config.windowBase + p.pbufBytes ≤ 2 ^ p.hostAddrW

end Sys2Proof
end

