-- ==== Sys2Proof/Syntax.lean ====
section
/-!
DEFINITION. The rows of spec/opcode_table.json, one constructor each, and the six kinds of table word they are
written in. EDLINK fetches no program (spec/20_memory.md R89): a row is one event of spec/40_engine.md R140, a
command written to CMD, a host register access, or a byte that passes on the serial link.
-/

namespace Sys2Proof

/-- The "format" column of the opcode table: what a table word is a word of. -/
inductive Format where
  /-- a value written to CMD (offset 0x004), R110 -/
  | cmd
  /-- a host word write: offset, then value (R113, R114) -/
  | hostWrite
  /-- a host word read: offset (R113) -/
  | hostRead
  /-- a byte EDLINK sends (R106) -/
  | wireOut
  /-- a byte EDLINK takes (R106) -/
  | wireIn
  /-- the byte at frame offset 1 (R104) -/
  | fmtByte
  deriving DecidableEq, Repr

/-- The six format codes (R105). A code outside 0..5 has no width and no sign (R170), so it is no value of this type. -/
inductive FormatCode where
  | uint8 | int8 | uint16 | int16 | uint32 | int32
  deriving DecidableEq, Repr

/-- The operations of the opcode table, one constructor per row. `hi` is the ignored `v[31:8]` of a CMD write (R110)
or the ignored `v[31:2]` of a CTRL write (R40). An offset `off` is a number with no upper bound: HOST_ADDR_W has none
(R9), and an offset beyond it is an access too (R78). -/
inductive Instr where
  /-- NOP, opcode 0x00 (R157) -/
  | nop (hi : BitVec 24)
  /-- SEND_DATA, opcode 0x01 (R220) -/
  | sendData (hi : BitVec 24)
  /-- RECV_DATA, opcode 0x02 (R260) -/
  | recvData (hi : BitVec 24)
  /-- SEND_TOKEN, opcode 0x03 (R230) -/
  | sendToken (hi : BitVec 24)
  /-- CRC_INIT, opcode 0x04 (R204) -/
  | crcInit (hi : BitVec 24)
  /-- RESERVED_CMD, opcode 0x05 (R111) -/
  | reserved05 (hi : BitVec 24)
  /-- RESERVED_CMD, opcodes 0x06, 0x07 (R111); `low` is what the row leaves open -/
  | reserved06 (low : BitVec 1) (hi : BitVec 24)
  /-- RESERVED_CMD, opcodes 0x08..0x0F (R111) -/
  | reserved08 (low : BitVec 3) (hi : BitVec 24)
  /-- RESERVED_CMD, opcodes 0x10..0x1F (R111) -/
  | reserved10 (low : BitVec 4) (hi : BitVec 24)
  /-- RESERVED_CMD, opcodes 0x20..0x3F (R111) -/
  | reserved20 (low : BitVec 5) (hi : BitVec 24)
  /-- RESERVED_CMD, opcodes 0x40..0x7F (R111) -/
  | reserved40 (low : BitVec 6) (hi : BitVec 24)
  /-- RESERVED_CMD, opcodes 0x80..0xFF (R111) -/
  | reserved80 (low : BitVec 7) (hi : BitVec 24)
  /-- CANCEL: a CTRL write with v[0] = 1; `clr` is v[1], CLEAR in the same write (R155) -/
  | cancel (clr : Bool) (hi : BitVec 30)
  /-- CLEAR: a CTRL write with v[1] = 1 and v[0] = 0 (R156) -/
  | clear (hi : BitVec 30)
  /-- CRC_FEED: a write of v to offset 0x038 (R205) -/
  | crcFeed (v : Word)
  /-- ELEM_READ: a read of ELEM_DATA, offset 0x074 (R180) -/
  | elemRead
  /-- ELEM_WRITE: a write of v to ELEM_DATA (R181) -/
  | elemWrite (v : Word)
  /-- WIN_READ: a read of the PBUF window word at 0x1000 + 4k (R72) -/
  | winRead (k : Nat)
  /-- WIN_WRITE: a write of v to the PBUF window word at 0x1000 + 4k (R72) -/
  | winWrite (k : Nat) (v : Word)
  /-- REG_READ: a read of any other offset (R158, R39, R78) -/
  | regRead (off : Nat)
  /-- REG_WRITE: a write of v to any other offset (R158, R39, R78) -/
  | regWrite (off : Nat) (v : Word)
  /-- SYNC_OUT: EDLINK sends 0x3C (R172) -/
  | syncOut
  /-- SYNC_IN: a received 0x3E (R261) -/
  | syncIn
  /-- READY_OUT: EDLINK sends 0x61 (R263) -/
  | readyOut
  /-- READY_IN: a received 0x61 (R223, R233) -/
  | readyIn
  /-- ACK_OUT: EDLINK sends 0x5E (R267) -/
  | ackOut
  /-- ACK_IN: a received 0x5E (R229) -/
  | ackIn
  /-- FMT_UINT8: a format byte of code 0; `flags` are its bits [5:4] (R104) -/
  | fmtUint8 (flags : BitVec 2)
  /-- FMT_INT8: a format byte of code 1 -/
  | fmtInt8 (flags : BitVec 2)
  /-- FMT_UINT16: a format byte of code 2 -/
  | fmtUint16 (flags : BitVec 2)
  /-- FMT_INT16: a format byte of code 3 -/
  | fmtInt16 (flags : BitVec 2)
  /-- FMT_UINT32: a format byte of code 4 -/
  | fmtUint32 (flags : BitVec 2)
  /-- FMT_INT32: a format byte of code 5 -/
  | fmtInt32 (flags : BitVec 2)
  deriving DecidableEq, Repr

/-- A table word as the interface carries it: its kind, and its bytes in order, each multi-byte number little-endian
(assumption log 4). -/
structure RawWord where
  format : Format
  bytes : List Byte
  deriving DecidableEq, Repr

/-- Why a table word is no row of the table. -/
inductive Reject where
  /-- the word has not the number of bytes its kind has -/
  | wrongLength
  /-- a byte on the link that no wire row names: plain data (R82) -/
  | dataByte
  /-- a byte at the format position whose masked code is above 5 (R104, R176) -/
  | invalidFormat
  deriving DecidableEq, Repr

/-- What a table word decodes to. -/
inductive Decoded where
  | instr (i : Instr)
  | rejected (why : Reject)
  deriving DecidableEq, Repr

end Sys2Proof
end

