-- ==== Sys2Proof/WellFormed.lean ====
section
/-!
DEFINITION. Which terms of `Instr` stand for a word of their own row of the opcode table. An access to an offset
that has a row of its own (ELEM_DATA, the window, CMD, CRC_FEED, CTRL with a command bit) is that row's, not
REG_READ's or REG_WRITE's.
-/

namespace Sys2Proof

/-- The word-aligned offsets of the PBUF window (R72), within the host's offset width (R78). -/
def inWindow (p : Params) (off : Nat) : Bool :=
  off % 4 == 0 && Config.windowBase ≤ off && off < Config.windowBase + p.pbufBytes && off < 2 ^ p.hostAddrW

/-- The instruction is a word of its row, for parameters `p`. -/
def wellFormed (p : Params) : Instr → Bool
  | .winRead k => 4 * k + 4 ≤ p.pbufBytes
  | .winWrite k _ => 4 * k + 4 ≤ p.pbufBytes
  | .regRead off => off != 0x074 && !inWindow p off
  | .regWrite off v =>
    off != 0x004 && off != 0x038 && off != 0x074 && !inWindow p off &&
      (off != 0x000 || (!v.getLsbD 0 && !v.getLsbD 1))
  | .nop _ | .sendData _ | .recvData _ | .sendToken _ | .crcInit _ => true
  | .reserved05 _ | .reserved06 _ _ | .reserved08 _ _ | .reserved10 _ _ => true
  | .reserved20 _ _ | .reserved40 _ _ | .reserved80 _ _ => true
  | .cancel _ _ | .clear _ | .crcFeed _ | .elemRead | .elemWrite _ => true
  | .syncOut | .syncIn | .readyOut | .readyIn | .ackOut | .ackIn => true
  | .fmtUint8 _ | .fmtInt8 _ | .fmtUint16 _ | .fmtInt16 _ | .fmtUint32 _ | .fmtInt32 _ => true

end Sys2Proof
end

