-- ==== Sys2Proof/Decode.lean ====
section
/-!
DEFINITION. The decoder of table words, total on any bytes, rejecting by name, and the encoder, both written from
spec/30_encoding.md R104, R106, R110, R113 and the match and mask columns of spec/opcode_table.json. With them,
the word numbering of the host's questions (`decodeTableWord`).
-/

namespace Sys2Proof

/-- Byte `i` of a word, little-endian (R76). -/
def byteOf (v : Word) (i : Nat) : Byte := v.extractLsb' (8 * i) 8

/-- The word whose bytes are b0 (least significant) to b3 (R76). -/
def wordOfBytes (b0 b1 b2 b3 : Byte) : Word := b3 ++ b2 ++ b1 ++ b0

/-- The four bytes of a word, least significant first. -/
def bytesOfWord (v : Word) : List Byte := [byteOf v 0, byteOf v 1, byteOf v 2, byteOf v 3]

/-- The little-endian number in a list of bytes. -/
def numberOf : List Byte → Nat
  | [] => 0
  | b :: rest => b.toNat + 256 * numberOf rest

/-- The bytes of a number, least significant first, none for 0; `fuel` bounds their count. -/
def bytesOfNumber : Nat → Nat → List Byte
  | 0, _ => []
  | fuel + 1, n => if n = 0 then [] else BitVec.ofNat 8 n :: bytesOfNumber fuel (n / 256)

/-- The bytes of a host offset: four, and as many more as an offset of 2^32 or above takes (assumption log 4). -/
def offsetBytes (off : Nat) : List Byte :=
  bytesOfWord (BitVec.ofNat 32 off) ++ bytesOfNumber (off / 2 ^ 32) (off / 2 ^ 32)

/-- The offset in a host read's bytes, if there are at least four. -/
def readOffset (bytes : List Byte) : Option Nat := if 4 ≤ bytes.length then some (numberOf bytes) else none

/-- The offset and the value in a host write's bytes: the last four are the value. -/
def splitAccess (bytes : List Byte) : Option (Nat × Word) :=
  match readOffset (bytes.take (bytes.length - 4)), bytes.drop (bytes.length - 4) with
  | some off, [v0, v1, v2, v3] => some (off, wordOfBytes v0 v1 v2 v3)
  | _, _ => none

/-- The CMD value with opcode `op` and ignored bits `hi` (R110). -/
def cmdValue (op : Byte) (hi : BitVec 24) : Word := hi ++ op

/-- The CTRL value with bits [1:0] = `low` (R40). -/
def ctrlValue (low : BitVec 2) (hi : BitVec 30) : Word := hi ++ low

/-- The format byte with flag bits [5:4] and bits [3:0] = `code` (R104). -/
def formatByte (flags : BitVec 2) (code : BitVec 4) : Byte := 0#2 ++ flags ++ code

/-- The index of the window word at a byte offset, if the offset is one of the window's (R72, R78). -/
def windowIndex (p : Params) (off : Nat) : Option Nat :=
  if off % 4 = 0 ∧ Config.windowBase ≤ off ∧ off < Config.windowBase + p.pbufBytes ∧ off < 2 ^ p.hostAddrW then
    some ((off - Config.windowBase) / 4)
  else none

/-- A write of `v` to CMD: the opcode is v[7:0] (R41, R110); the reserved opcodes are split as the table's seven
match and mask rows split them (R111). -/
def decodeCmd (v : Word) : Instr :=
  let op : Byte := v.extractLsb' 0 8
  let hi : BitVec 24 := v.extractLsb' 8 24
  if op = 0x00#8 then .nop hi
  else if op = 0x01#8 then .sendData hi
  else if op = 0x02#8 then .recvData hi
  else if op = 0x03#8 then .sendToken hi
  else if op = 0x04#8 then .crcInit hi
  else if op = 0x05#8 then .reserved05 hi
  else if op &&& 0xFE#8 = 0x06#8 then .reserved06 (op.extractLsb' 0 1) hi
  else if op &&& 0xF8#8 = 0x08#8 then .reserved08 (op.extractLsb' 0 3) hi
  else if op &&& 0xF0#8 = 0x10#8 then .reserved10 (op.extractLsb' 0 4) hi
  else if op &&& 0xE0#8 = 0x20#8 then .reserved20 (op.extractLsb' 0 5) hi
  else if op &&& 0xC0#8 = 0x40#8 then .reserved40 (op.extractLsb' 0 6) hi
  else .reserved80 (op.extractLsb' 0 7) hi

/-- A host word write (R38, R113). -/
def decodeHostWrite (p : Params) (off : Nat) (v : Word) : Instr :=
  if off = 0x000 then
    if v.getLsbD 0 then .cancel (v.getLsbD 1) (v.extractLsb' 2 30)
    else if v.getLsbD 1 then .clear (v.extractLsb' 2 30)
    else .regWrite off v
  else if off = 0x004 then decodeCmd v
  else if off = 0x038 then .crcFeed v
  else if off = 0x074 then .elemWrite v
  else match windowIndex p off with
    | some k => .winWrite k v
    | none => .regWrite off v

/-- A host word read (R38, R113). -/
def decodeHostRead (p : Params) (off : Nat) : Instr :=
  if off = 0x074 then .elemRead
  else match windowIndex p off with
    | some k => .winRead k
    | none => .regRead off

/-- A byte EDLINK sends (R106 and the WIRE_OUT rows). -/
def decodeWireOut (b : Byte) : Decoded :=
  if b = 0x3C#8 then .instr .syncOut
  else if b = 0x61#8 then .instr .readyOut
  else if b = 0x5E#8 then .instr .ackOut
  else .rejected .dataByte

/-- A byte EDLINK takes (R106 and the WIRE_IN rows). -/
def decodeWireIn (b : Byte) : Decoded :=
  if b = 0x3E#8 then .instr .syncIn
  else if b = 0x61#8 then .instr .readyIn
  else if b = 0x5E#8 then .instr .ackIn
  else .rejected .dataByte

/-- The byte at frame offset 1: its code is b & 0xCF, its flags b[5:4] (R104). -/
def decodeFormatByte (b : Byte) : Decoded :=
  let flags : BitVec 2 := b.extractLsb' 4 2
  let code : Byte := b &&& Config.codeMask
  if code = 0x00#8 then .instr (.fmtUint8 flags)
  else if code = 0x01#8 then .instr (.fmtInt8 flags)
  else if code = 0x02#8 then .instr (.fmtUint16 flags)
  else if code = 0x03#8 then .instr (.fmtInt16 flags)
  else if code = 0x04#8 then .instr (.fmtUint32 flags)
  else if code = 0x05#8 then .instr (.fmtInt32 flags)
  else .rejected .invalidFormat

/-- The decoder: any kind, any bytes. -/
def decode (p : Params) (w : RawWord) : Decoded :=
  match w.format, w.bytes with
  | .cmd, [b0, b1, b2, b3] => .instr (decodeCmd (wordOfBytes b0 b1 b2 b3))
  | .hostWrite, bytes =>
    match splitAccess bytes with
    | some (off, v) => .instr (decodeHostWrite p off v)
    | none => .rejected .wrongLength
  | .hostRead, bytes =>
    match readOffset bytes with
    | some off => .instr (decodeHostRead p off)
    | none => .rejected .wrongLength
  | .wireOut, [b] => decodeWireOut b
  | .wireIn, [b] => decodeWireIn b
  | .fmtByte, [b] => decodeFormatByte b
  | _, _ => .rejected .wrongLength

/-- The table word of a CMD write. -/
def cmdWord (op : Byte) (hi : BitVec 24) : RawWord := ⟨.cmd, bytesOfWord (cmdValue op hi)⟩

/-- The table word of a host write. -/
def writeWord (off : Nat) (v : Word) : RawWord := ⟨.hostWrite, offsetBytes off ++ bytesOfWord v⟩

/-- The table word of a host read. -/
def readWord (off : Nat) : RawWord := ⟨.hostRead, offsetBytes off⟩

/-- The offset of window word `k` (R72). -/
def windowOffset (k : Nat) : Nat := Config.windowBase + 4 * k

/-- The encoder, from the same tables. -/
def encode : Instr → RawWord
  | .nop hi => cmdWord 0x00#8 hi
  | .sendData hi => cmdWord 0x01#8 hi
  | .recvData hi => cmdWord 0x02#8 hi
  | .sendToken hi => cmdWord 0x03#8 hi
  | .crcInit hi => cmdWord 0x04#8 hi
  | .reserved05 hi => cmdWord 0x05#8 hi
  | .reserved06 low hi => cmdWord (0b0000011#7 ++ low) hi
  | .reserved08 low hi => cmdWord (0b00001#5 ++ low) hi
  | .reserved10 low hi => cmdWord (0b0001#4 ++ low) hi
  | .reserved20 low hi => cmdWord (0b001#3 ++ low) hi
  | .reserved40 low hi => cmdWord (0b01#2 ++ low) hi
  | .reserved80 low hi => cmdWord (0b1#1 ++ low) hi
  | .cancel clr hi => writeWord 0x000 (ctrlValue (BitVec.ofBool clr ++ 1#1) hi)
  | .clear hi => writeWord 0x000 (ctrlValue 0b10#2 hi)
  | .crcFeed v => writeWord 0x038 v
  | .elemRead => readWord 0x074
  | .elemWrite v => writeWord 0x074 v
  | .winRead k => readWord (windowOffset k)
  | .winWrite k v => writeWord (windowOffset k) v
  | .regRead off => readWord off
  | .regWrite off v => writeWord off v
  | .syncOut => ⟨.wireOut, [0x3C#8]⟩
  | .syncIn => ⟨.wireIn, [0x3E#8]⟩
  | .readyOut => ⟨.wireOut, [0x61#8]⟩
  | .readyIn => ⟨.wireIn, [0x61#8]⟩
  | .ackOut => ⟨.wireOut, [0x5E#8]⟩
  | .ackIn => ⟨.wireIn, [0x5E#8]⟩
  | .fmtUint8 flags => ⟨.fmtByte, [formatByte flags 0#4]⟩
  | .fmtInt8 flags => ⟨.fmtByte, [formatByte flags 1#4]⟩
  | .fmtUint16 flags => ⟨.fmtByte, [formatByte flags 2#4]⟩
  | .fmtInt16 flags => ⟨.fmtByte, [formatByte flags 3#4]⟩
  | .fmtUint32 flags => ⟨.fmtByte, [formatByte flags 4#4]⟩
  | .fmtInt32 flags => ⟨.fmtByte, [formatByte flags 5#4]⟩

/-- The word of bits `w` that the opcode table numbers, with the kind the table's own row gives it. The bits of a
table word do not say their kind (a CMD value, a wire byte and a format byte may be the same eight bits, CANCEL and
CLEAR the same offset): this is the model's choice among the rows that share a word (assumption log 5). -/
def tableWord (nbits w : Nat) : RawWord :=
  if nbits ≤ 8 then
    if w = 0x3C then ⟨.wireOut, [0x3C#8]⟩
    else if w = 0x3E ∨ w = 0x61 ∨ w = 0x5E then ⟨.wireIn, [BitVec.ofNat 8 w]⟩
    else ⟨.cmd, bytesOfWord (BitVec.ofNat 32 w)⟩
  else writeWord w (if w = 0 then 1#32 else 0#32)

/-- The instruction the decoder reads from table word `w` (the host's question), under the default parameters. -/
def decodeTableWord (nbits w : Nat) : Option Instr :=
  match decode Params.default (tableWord nbits w) with
  | .instr i => some i
  | .rejected _ => none

end Sys2Proof
end

