-- ==== Sys2Proof/Machine/State.lean ====
section
/-!
DEFINITION. EDLINK's state as plain data (spec/10_state.md R30 to R59, spec/20_memory.md R70), the events of
spec/40_engine.md R140, what stands outside the block that its steps need (the transport's held bytes, the wire,
the schedule), the two stop types, and the machine right after reset.
-/

namespace Sys2Proof.Machine

/-- The state register ST (R31). Codes 17..31 are never held, so they are no values of this type. -/
inductive St where
  | idle | txHdr | txWaitReady | txPayload | txGap | txDrain | txCrc | txWaitAck
  | rxWaitSync | rxHdr | rxReady | rxPayload | rxCrc | rxValidate | rxAck | tokSend | tokWait
  deriving DecidableEq, Repr

/-- STATUS.ERR_CODE (R300). Codes 8..15 are never written, so they are no values of this type. -/
inductive ErrCode where
  | none | connection | protocol | timeout | checksumMismatch | unsupportedType | capacity | cancelled
  deriving DecidableEq, Repr

/-- STATUS.ERR_WAIT (R301). -/
inductive ErrWait where
  | none | sync | header | ready | payload | crc | ack | token
  deriving DecidableEq, Repr

/-- The recorded fields of STATUS (R42). BUSY and STATE are read from ST, LINK from the input. -/
structure Status where
  /-- bit 1 -/
  done : Bool
  /-- bit 2 -/
  error : Bool
  /-- bit 3, sticky (R43) -/
  cmdRej : Bool
  /-- bit 4, sticky (R43) -/
  hostConflict : Bool
  /-- bit 5, sticky (R43) -/
  elemErr : Bool
  /-- bit 6 -/
  crcMatch : Bool
  /-- bits [11:8] -/
  errCode : ErrCode
  /-- bits [14:12] -/
  errWait : ErrWait
  deriving DecidableEq, Repr

/-- The locked read-write registers (R38, R153): what a transfer reads and nothing may change while it runs. -/
structure Settings where
  /-- TX_FMT[7:0] (R44) -/
  txFmt : Byte
  /-- TX_TAG[7:0] (R45) -/
  txTag : Byte
  /-- TX_COUNT (R46) -/
  txCount : Word
  /-- READY_DL (R53) -/
  readyDl : Word
  /-- ACK_DL (R53) -/
  ackDl : Word
  /-- SYNC_DL (R53) -/
  syncDl : Word
  /-- BYTE_DL (R53) -/
  byteDl : Word
  /-- GAP (R54) -/
  gap : Word
  /-- CFG[0] (R55) -/
  strayFail : Bool
  /-- CFG[1] (R55) -/
  mismatchAck : Bool
  /-- TOKEN_LEN[4:0] (R56) -/
  tokenLen : BitVec 5
  /-- TOKEN0..TOKEN3 (R56) -/
  token0 : Word
  token1 : Word
  token2 : Word
  token3 : Word
  deriving DecidableEq, Repr

/-- PBUF as the bytes that something wrote since power-on, by offset, offsets strictly rising. An offset that is not
listed holds its power-on byte, which is no value the model knows (R71), so no listed byte equals it by rule. -/
abbrev Memory := List Host.Cell

/-- The canonical form of a memory: offsets strictly rising, hence no offset twice. -/
abbrev Memory.wf (m : Memory) : Prop := (m.map Prod.fst).Pairwise (· < ·)

/-- Every listed offset exists in a buffer of `n` bytes. -/
abbrev Memory.within (n : Nat) (m : Memory) : Prop := ∀ c ∈ m, c.1 < n

/-- What stands at the byte interface of R34, on the transport's side. -/
structure Link where
  /-- the level of the input `link_open` -/
  linkOpen : Bool
  /-- received bytes the transport holds, oldest first: `rx_valid` = not empty, `rx_data` = its head (R35, R91) -/
  held : List Byte
  /-- bytes the transport has taken from EDLINK, oldest first (R91): a record, which no rule reads -/
  wire : List Byte
  deriving DecidableEq, Repr

/-- The width of a host access. Only 32 bits has a meaning (R77). -/
inductive AccessWidth where
  | w8 | w16 | w32 | w64
  deriving DecidableEq, Repr

/-- What may happen next: the events of R140, and what the environment does at the interface between them. -/
inductive Event where
  /-- `HostWrite(off, v)` -/
  | hostWrite (width : AccessWidth) (off : Nat) (v : Word)
  /-- `HostRead(off)` -/
  | hostRead (width : AccessWidth) (off : Nat)
  /-- the transport offers its oldest held byte: `RxByte(b)` where `rx_ready` is 1 -/
  | rx
  /-- the transport is ready to take a byte (`tx_ready` = 1): `TxByte` where `tx_valid` is 1 -/
  | tx
  /-- the transport reports `tx_empty` = 1: `Drain` in TX_DRAIN -/
  | drain
  /-- `Tick` -/
  | tick
  /-- EDLINK's own step: `Internal` in RX_VALIDATE -/
  | internal
  /-- `Reset` -/
  | reset
  /-- power-on: a reset with PBUF drawn anew (R340) -/
  | powerOn
  /-- the environment: a byte of the peer reaches the transport (R91) -/
  | peerByte (b : Byte)
  /-- the environment: `link_open` takes this level -/
  | linkLevel (isOpen : Bool)
  deriving DecidableEq, Repr

/-- The whole machine. -/
structure State where
  /-- the implementation's parameters (R9); no step changes them -/
  params : Params
  /-- ST (R31) -/
  st : St
  /-- IDX (R33) -/
  idx : BitVec 5
  /-- CHUNK_CNT (R33) -/
  chunkCnt : BitVec 4
  /-- HDR[0..5] (R33) -/
  hdr : Vector Byte 6
  /-- STATUS (R42) -/
  status : Status
  /-- the locked registers (R44 to R46, R53 to R56) -/
  settings : Settings
  /-- RX_FMT.RAW (R47) -/
  rxRaw : Byte
  /-- RX_FMT.CODE (R47) -/
  rxCode : Byte
  /-- RX_TAG[7:0] (R48) -/
  rxTag : Byte
  /-- RX_COUNT (R48) -/
  rxCount : Word
  /-- LEN_HI[1:0] ++ LEN (R49) -/
  len34 : Len34
  /-- PROGRESS (R50) -/
  progress : Word
  /-- TIMER (R51) -/
  timer : Word
  /-- CRC_ACC[15:0] = ACC (R52, R200) -/
  acc : Sum16
  /-- CRC_RX[15:0] (R52) -/
  crcRx : Sum16
  /-- ELEM_FMT[7:0] (R57) -/
  elemFmt : Byte
  /-- ELEM_IDX (R57) -/
  elemIdx : Word
  /-- PBUF (R70): what was written since power-on -/
  pbuf : Memory
  /-- the MODEL's: how many times PBUF was drawn anew, the argument of the free value `Config.powerOnByte` (R71) -/
  draws : Nat
  /-- the transport's side of the interface (R34) -/
  link : Link
  /-- the MODEL's: the value the last host read returned -/
  readData : Word
  /-- the MODEL's: the events still to come, the next first (R114, R141) -/
  script : List Event
  deriving DecidableEq, Repr

/-- Why a step may fault: nothing. `No step faults` (R142), so this type has no constructor and no meaning can answer
with a fault. -/
inductive Fault where
  deriving DecidableEq, Repr

/-- Why a step may be refused. -/
inductive Refusal where
  /-- raised by no arm of `exec`: the form an instruction without a meaning would be rejected in. Safe. -/
  | notModelled (mnemonic : String)
  /-- raised by `fetch`, for a host access that is not 32 bits wide: it has no meaning (R77, R142). Safe: the machine
  stops where the spec gives no behaviour. -/
  | hostAccessWidth (width : AccessWidth)
  deriving DecidableEq, Repr

/-- STATUS after reset (R59). -/
def Status.reset : Status where
  done := false
  error := false
  cmdRej := false
  hostConflict := false
  elemErr := false
  crcMatch := false
  errCode := .none
  errWait := .none

/-- The locked registers after reset (R59). -/
def Settings.reset (p : Params) : Settings where
  txFmt := 0#8
  txTag := 0#8
  txCount := 0#32
  readyDl := p.dlReset
  ackDl := p.dlReset
  syncDl := p.dlReset
  byteDl := p.dlReset
  gap := p.chunkGapReset
  strayFail := false
  mismatchAck := false
  tokenLen := 0#5
  token0 := 0#32
  token1 := 0#32
  token2 := 0#32
  token3 := 0#32

/-- The machine right after power-on reset with parameters `p` (R59, R340): PBUF as drawn, nothing held by the
transport, nothing on the wire, nothing scheduled, and the link open (assumption log 7). -/
def State.resetWith (p : Params) : State where
  params := p
  st := .idle
  idx := 0#5
  chunkCnt := 0#4
  hdr := Vector.replicate 6 0#8
  status := Status.reset
  settings := Settings.reset p
  rxRaw := 0#8
  rxCode := 0#8
  rxTag := 0#8
  rxCount := 0#32
  len34 := 0#34
  progress := 0#32
  timer := 0#32
  acc := Config.seed
  crcRx := 0#16
  elemFmt := 0#8
  elemIdx := 0#32
  pbuf := []
  draws := 0
  link := { linkOpen := true, held := [], wire := [] }
  readData := 0#32
  script := []

/-- The machine right after reset, with the spec's default parameters (R9, R59). -/
def State.reset : State := State.resetWith Params.default

end Sys2Proof.Machine
end

