-- ==== Sys2Proof/Machine/Ops.lean ====
section
/-!
DEFINITION. The shared operations: reading and writing PBUF, the checksum, moving between states, starting and
completing a transfer, the abort (EDLINK's analogue of taking an exception) with its clearing, and reset.
-/

namespace Sys2Proof.Machine

/-! ### PBUF -/

/-- The byte written at an offset since power-on, if any. -/
def Memory.read : Memory → Nat → Option Byte
  | [], _ => none
  | (c, v) :: rest, a => if a = c then some v else Memory.read rest a

/-- A memory with one byte written, in canonical form. -/
def Memory.write : Memory → Nat → Byte → Memory
  | [], a, b => [(a, b)]
  | (c, v) :: rest, a, b =>
    if a < c then (a, b) :: (c, v) :: rest
    else if a = c then (a, b) :: rest
    else (c, v) :: Memory.write rest a b

/-- `PBUF[a]`: the byte written there, else its power-on byte (R70, R71). -/
def pbufByte (s : State) (a : Nat) : Byte :=
  (s.pbuf.read a).getD (Config.powerOnByte s.draws a)

/-- `PBUF[a] <- b`, where the offset exists (R70). Every caller has checked that it does (R74, R264), so the other
case is no step of the machine. -/
def setPbufByte (a : Nat) (b : Byte) (s : State) : State :=
  if a < s.params.pbufBytes then { s with pbuf := s.pbuf.write a b } else s

/-- `MemRead(off, n)` (R73). -/
def memRead (s : State) (off : Nat) : Nat → Word
  | 0 => 0#32
  | n + 1 => (memRead s (off + 1) n <<< 8) ||| (pbufByte s off).setWidth 32

/-- `MemWrite(off, n, v)` (R74). -/
def memWrite (off : Nat) (v : Word) : Nat → State → State
  | 0, s => s
  | n + 1, s => memWrite (off + 1) (v >>> 8) n (setPbufByte off (v.setWidth 8) s)

/-! ### The checksum accumulator -/

/-- update: `ACC <- (ACC + zext_16(b)) mod 2^16` (R202). -/
def sumUpdate (acc : Sum16) (b : Byte) : Sum16 := acc + b.setWidth 16

/-- init: `ACC <- 0x1234` (R201). -/
def initAcc (s : State) : State := { s with acc := Config.seed }

/-- One update of ACC (R202). -/
def feedAcc (b : Byte) (s : State) : State := { s with acc := sumUpdate s.acc b }

/-! ### States and transfers -/

/-- `BUSY = (ST != IDLE)` (R32). -/
def busy (s : State) : Bool := s.st != .idle

/-- `ST <- S` for a state other than IDLE: TIMER is set to 0 in the same step (R150). -/
def enter (target : St) (s : State) : State := { s with st := target, timer := 0#32 }

/-- `StartTransfer()` (R145). -/
def startTransfer (s : State) : State :=
  { s with
    status := { s.status with done := false, error := false, crcMatch := false, errCode := .none, errWait := .none }
    progress := 0#32
    timer := 0#32
    idx := 0#5
    chunkCnt := 0#4
    len34 := 0#34 }

/-- `Complete()` (R152). -/
def complete (s : State) : State :=
  { s with st := .idle, status := { s.status with done := true }, idx := 0#5, chunkCnt := 0#4 }

/-- `raise E(w)`: the abort of a transfer, the block's analogue of taking an exception (R154, R308). Control goes to
IDLE; nothing is sent, no state is saved, and every other register keeps its value. -/
def abort (code : ErrCode) (wait : ErrWait) (s : State) : State :=
  { s with
    st := .idle
    status := { s.status with error := true, done := false, errCode := code, errWait := wait }
    idx := 0#5
    chunkCnt := 0#4 }

/-- CLEAR: the return from an abort, so far as there is one (R156, R309). While busy only the sticky bits go. -/
def clearRecord (s : State) : State :=
  let t := { s with status := { s.status with cmdRej := false, hostConflict := false, elemErr := false } }
  if busy s then t
  else
    { t with
      status := { t.status with done := false, error := false, crcMatch := false, errCode := .none, errWait := .none } }

/-- CANCEL: `if BUSY == 1: raise CANCELLED(NONE)` (R155). -/
def cancelTransfer (s : State) : State := if busy s then abort .cancelled .none s else s

/-- A rejected command sets the sticky CMD_REJ (R144). -/
def rejectCommand (s : State) : State := { s with status := { s.status with cmdRej := true } }

/-- A dropped locked write sets the sticky HOST_CONFLICT (R153). -/
def hostConflict (s : State) : State := { s with status := { s.status with hostConflict := true } }

/-- An invalid element access sets the sticky ELEM_ERR (R180, R181). -/
def elemError (s : State) : State := { s with status := { s.status with elemErr := true } }

/-- A locked write: dropped with HOST_CONFLICT while busy, else it takes effect (R153). -/
def lockedWrite (f : State → State) (s : State) : State := if busy s then hostConflict s else f s

/-- A host read returned this value; no other effect (R80). -/
def returnWord (v : Word) (s : State) : State := { s with readData := v }

/-! ### Reset -/

/-- Reset (R340): every register and internal element at its R59 value, PBUF and the transport untouched, no abort
record. -/
def resetStep (s : State) : State :=
  { s with
    st := .idle
    idx := 0#5
    chunkCnt := 0#4
    hdr := Vector.replicate 6 0#8
    status := Status.reset
    settings := Settings.reset s.params
    rxRaw := 0#8
    rxCode := 0#8
    rxTag := 0#8
    rxCount := 0#32
    len34 := 0#34
    progress := 0#32
    timer := 0#32
    acc := Config.seed
    crcRx := 0#16
    elemFmt := 0#8
    elemIdx := 0#32 }

/-- Power-on: a reset with PBUF drawn freely (R340, R71). -/
def powerOnStep (s : State) : State :=
  { resetStep s with pbuf := [], draws := s.draws + 1 }

end Sys2Proof.Machine
end

