-- ==== Sys2Proof/Machine/Operands.lean ====
section
/-!
DEFINITION. The operand forms: the format table, the frame header codec, the payload length, the element codec and
its view of PBUF, the token bytes (spec/41_frame_codec.md, spec/10_state.md R56), and the interface outputs, which
are functions of the state (spec/10_state.md R35, R36).
-/

namespace Sys2Proof.Machine

/-! ### The format table -/

/-- The format code of a byte, if `FormatSupported` (R105, R171). -/
def formatOf (f : Byte) : Option FormatCode :=
  match f.toNat with
  | 0 => some .uint8
  | 1 => some .int8
  | 2 => some .uint16
  | 3 => some .int16
  | 4 => some .uint32
  | 5 => some .int32
  | _ => none

/-- `width(f)` (R105, R170). -/
def width : FormatCode → Nat
  | .uint8 => 1
  | .int8 => 1
  | .uint16 => 2
  | .int16 => 2
  | .uint32 => 4
  | .int32 => 4

/-- `LEN34 = count × width(f)`, exact in 34 bits (R177). -/
def payloadLen (count : Word) (f : FormatCode) : Len34 := count.setWidth 34 * BitVec.ofNat 34 (width f)

/-! ### Headers -/

/-- `OutHdr(fmt, tag, count)` (R172). -/
def outHdr (fmt tag : Byte) (count : Word) : List Byte :=
  [Config.txSync, fmt, tag, byteOf count 0, byteOf count 1, byteOf count 2, byteOf count 3]

/-- What `InHdr` reads from the six header bytes (R174). -/
structure Header where
  raw : Byte
  code : Byte
  tag : Byte
  count : Word
  deriving DecidableEq, Repr

/-- `InHdr(h[0..5])` (R174, R175). The header is valid iff `formatOf` knows the code (R176). -/
def inHdr (h : Vector Byte 6) : Header where
  raw := h[0]
  code := h[0] &&& Config.codeMask
  tag := h[1]
  count := wordOfBytes h[2] h[3] h[4] h[5]

/-! ### Elements -/

/-- `ElemDecode(f, raw)`: sign- or zero-extended (R178); two's complement by G1. -/
def elemDecode (f : FormatCode) (raw : Word) : Word :=
  match f with
  | .uint8 => (raw.setWidth 8).setWidth 32
  | .int8 => (raw.setWidth 8).signExtend 32
  | .uint16 => (raw.setWidth 16).setWidth 32
  | .int16 => (raw.setWidth 16).signExtend 32
  | .uint32 => raw
  | .int32 => raw

/-- The element view: the format and the byte offset of the element that ELEM_FMT and ELEM_IDX name, if it is in
range (R179). The offset is exact. -/
def elemAt (s : State) : Option (FormatCode × Nat) :=
  match formatOf s.elemFmt with
  | none => none
  | some f =>
    if s.elemIdx.toNat * width f + width f ≤ s.params.pbufBytes then some (f, s.elemIdx.toNat * width f) else none

/-! ### Tokens -/

/-- `TokenByte(i)`: byte 4k+j is bits [8j+7:8j] of TOKENk (R56). -/
def tokenByte (c : Settings) (i : Nat) : Byte :=
  (c.token3 ++ c.token2 ++ c.token1 ++ c.token0).extractLsb' (8 * i) 8

/-! ### The interface outputs -/

/-- `rx_ready`: the rx_ready column of R31 (R35). -/
def rxReady (s : State) : Bool :=
  match s.st with
  | .txWaitReady | .txWaitAck | .rxWaitSync | .rxHdr | .rxPayload | .rxCrc | .tokWait => true
  | .idle | .txHdr | .txPayload | .txGap | .txDrain | .txCrc | .rxReady | .rxValidate | .rxAck | .tokSend => false

/-- `tx_valid`: the tx_valid column of R31 (R36). -/
def txValid (s : State) : Bool :=
  match s.st with
  | .txHdr | .txPayload | .txCrc | .rxReady | .rxAck | .tokSend => true
  | .idle | .txWaitReady | .txGap | .txDrain | .txWaitAck | .rxWaitSync | .rxHdr | .rxPayload | .rxCrc | .rxValidate
  | .tokWait => false

/-- `tx_data` where `tx_valid` is 1 (R36); where it is 0, `tx_data` carries no meaning. -/
def txData (s : State) : Option Byte :=
  match s.st with
  | .txHdr => (outHdr s.settings.txFmt s.settings.txTag s.settings.txCount)[s.idx.toNat]?
  | .txPayload => some (pbufByte s s.progress.toNat)
  | .txCrc => some (if s.idx = 0#5 then s.acc.extractLsb' 0 8 else s.acc.extractLsb' 8 8)
  | .rxReady => some Config.readyByte
  | .rxAck => some Config.ackByte
  | .tokSend => some (tokenByte s.settings s.idx.toNat)
  | .idle | .txWaitReady | .txGap | .txDrain | .txWaitAck | .rxWaitSync | .rxHdr | .rxPayload | .rxCrc | .rxValidate
  | .tokWait => none

end Sys2Proof.Machine
end

