-- ==== Sys2Proof/Machine/Flags.lean ====
section
/-!
DEFINITION. The STATUS word (spec/10_state.md R42) and the numbers of its codes (R31, R300, R301), and what each
status-writing event computes for the flags that are computed from data (CRC_MATCH).
-/

namespace Sys2Proof.Machine

/-- The code of a state (R31). -/
def stCode : St → BitVec 5
  | .idle => 0#5
  | .txHdr => 1#5
  | .txWaitReady => 2#5
  | .txPayload => 3#5
  | .txGap => 4#5
  | .txDrain => 5#5
  | .txCrc => 6#5
  | .txWaitAck => 7#5
  | .rxWaitSync => 8#5
  | .rxHdr => 9#5
  | .rxReady => 10#5
  | .rxPayload => 11#5
  | .rxCrc => 12#5
  | .rxValidate => 13#5
  | .rxAck => 14#5
  | .tokSend => 15#5
  | .tokWait => 16#5

/-- ERR_CODE (R300). -/
def errCodeBits : ErrCode → BitVec 4
  | .none => 0#4
  | .connection => 1#4
  | .protocol => 2#4
  | .timeout => 3#4
  | .checksumMismatch => 4#4
  | .unsupportedType => 5#4
  | .capacity => 6#4
  | .cancelled => 7#4

/-- ERR_WAIT (R301). -/
def errWaitBits : ErrWait → BitVec 3
  | .none => 0#3
  | .sync => 1#3
  | .header => 2#3
  | .ready => 3#3
  | .payload => 4#3
  | .crc => 5#3
  | .ack => 6#3
  | .token => 7#3

/-- STATUS as the host reads it, field by field from bit 31 down (R42). -/
def statusWord (s : State) : Word :=
  0#11 ++ stCode s.st ++ 0#1 ++ errWaitBits s.status.errWait ++ errCodeBits s.status.errCode ++
    BitVec.ofBool s.link.linkOpen ++ BitVec.ofBool s.status.crcMatch ++ BitVec.ofBool s.status.elemErr ++
    BitVec.ofBool s.status.hostConflict ++ BitVec.ofBool s.status.cmdRej ++ BitVec.ofBool s.status.error ++
    BitVec.ofBool s.status.done ++ BitVec.ofBool (busy s)

/-- CRC_MATCH as RX_VALIDATE records it: the received checksum equals ACC (R266, R203). -/
def recordMatch (s : State) : State := { s with status := { s.status with crcMatch := s.crcRx == s.acc } }

end Sys2Proof.Machine
end

