-- ==== Sys2Proof/Machine/Receive.lean ====
section
/-!
DEFINITION. The receiver: starting RECV_DATA, and each of its states' rules (spec/44_receive.md).
-/

namespace Sys2Proof.Machine

/-- RECV_DATA's acceptance step (R260). -/
def startRecvData (s : State) : State :=
  let t := startTransfer s
  if t.link.linkOpen then enter .rxWaitSync { initAcc t with crcRx := 0#16, idx := 0#5 }
  else abort .connection .none t

/-- RX_WAIT_SYNC, a byte received (R261). -/
def waitSyncGot (b : Byte) (s : State) : State :=
  if b = Config.rxSync then enter .rxHdr { s with idx := 0#5 } else s

/-- The sixth header byte is in: decode, record, check, and go on (R262). PROTOCOL is judged before CAPACITY (R306). -/
def headerDone (s : State) : State :=
  let d := inHdr s.hdr
  let t := { s with rxRaw := d.raw, rxCode := d.code, rxTag := d.tag, rxCount := d.count }
  match formatOf d.code with
  | none => abort .protocol .header t
  | some f =>
    let u := { t with len34 := payloadLen d.count f }
    if u.len34.toNat > s.params.pbufBytes then abort .capacity .header u
    else enter .rxReady { u with idx := 0#5 }

/-- RX_HDR, a byte received; each byte restarts the deadline (R262, R151). -/
def rxHdrGot (b : Byte) (s : State) : State :=
  let t := { s with hdr := s.hdr.setIfInBounds s.idx.toNat b, idx := s.idx + 1#5, timer := 0#32 }
  if t.idx = 6#5 then headerDone t else t

/-- RX_READY, the readiness byte taken (R263). -/
def readySent (s : State) : State :=
  if s.len34 = 0#34 then enter .rxCrc { s with idx := 0#5 } else enter .rxPayload { s with idx := 0#5 }

/-- RX_PAYLOAD, a byte received (R264). -/
def rxPayloadGot (b : Byte) (s : State) : State :=
  let t := { feedAcc b (setPbufByte s.progress.toNat b s) with progress := s.progress + 1#32, timer := 0#32 }
  if t.progress.setWidth 34 = t.len34 then enter .rxCrc { t with idx := 0#5 } else t

/-- RX_CRC, a byte received: low byte first (R265, R109). -/
def rxCrcGot (b : Byte) (s : State) : State :=
  let t :=
    { s with
      crcRx := if s.idx = 0#5 then s.crcRx.extractLsb' 8 8 ++ b else b ++ s.crcRx.extractLsb' 0 8
      idx := s.idx + 1#5
      timer := 0#32 }
  if t.idx = 2#5 then enter .rxValidate { t with idx := 0#5 } else t

/-- RX_VALIDATE, the internal step (R266). -/
def validate (s : State) : State :=
  let t := recordMatch s
  if t.status.crcMatch ∨ s.settings.mismatchAck then enter .rxAck t else abort .checksumMismatch .none t

/-- RX_ACK, the acknowledgment byte taken (R267). -/
def ackSent (s : State) : State := complete s

end Sys2Proof.Machine
end

