-- ==== Sys2Proof/Machine/Transmit.lean ====
section
/-!
DEFINITION. The sender: starting SEND_DATA and SEND_TOKEN, and each of their states' rules for a byte taken, a byte
received, the pause and the drain (spec/43_transmit.md).
-/

namespace Sys2Proof.Machine

/-- The start checks and entry of SEND_DATA after the link check (R221). -/
def sendDataChecks (s : State) : State :=
  match formatOf s.settings.txFmt with
  | none => abort .unsupportedType .none s
  | some f =>
    let t := { s with len34 := payloadLen s.settings.txCount f }
    if t.len34.toNat > s.params.pbufBytes then abort .capacity .none t
    else enter .txHdr { initAcc t with idx := 0#5 }

/-- SEND_DATA's acceptance step (R220). -/
def startSendData (s : State) : State :=
  let t := startTransfer s
  if t.link.linkOpen then sendDataChecks t else abort .connection .none t

/-- SEND_TOKEN's acceptance step (R230). -/
def startSendToken (s : State) : State :=
  let t := startTransfer s
  if t.link.linkOpen then
    let u := { t with len34 := t.settings.tokenLen.setWidth 34, idx := 0#5 }
    if u.settings.tokenLen = 0#5 then enter .tokWait u else enter .tokSend u
  else abort .connection .none t

/-- TX_HDR, a byte taken (R222). -/
def txHdrSent (s : State) : State :=
  let t := { s with idx := s.idx + 1#5 }
  if t.idx = 7#5 then enter .txWaitReady { t with idx := 0#5 } else t

/-- TX_WAIT_READY, a byte received (R223). -/
def waitReadyGot (b : Byte) (s : State) : State :=
  if b = Config.readyByte then
    if s.len34 = 0#34 then enter .txDrain s else enter .txPayload { s with chunkCnt := 0#4 }
  else if s.settings.strayFail then abort .protocol .ready s
  else s

/-- TX_PAYLOAD, the byte `b` taken: the chunk controller (R224). -/
def txPayloadSent (b : Byte) (s : State) : State :=
  let t := { feedAcc b s with progress := s.progress + 1#32, chunkCnt := s.chunkCnt + 1#4 }
  let atEnd := t.progress.setWidth 34 == t.len34
  if t.chunkCnt = BitVec.ofNat 4 Config.chunk ∨ atEnd then
    let u := { t with chunkCnt := 0#4 }
    if u.settings.gap ≠ 0#32 then enter .txGap u
    else if atEnd then enter .txDrain u
    else u
  else t

/-- TX_GAP, a tick, after TIMER counted it (R225). -/
def txGapTick (s : State) : State :=
  if s.timer ≥ s.settings.gap then
    if s.progress.setWidth 34 = s.len34 then enter .txDrain s else enter .txPayload s
  else s

/-- TX_DRAIN, the drain (R227). -/
def drained (s : State) : State := enter .txCrc { s with idx := 0#5 }

/-- TX_CRC, a byte taken (R228). -/
def txCrcSent (s : State) : State :=
  let t := { s with idx := s.idx + 1#5 }
  if t.idx = 2#5 then enter .txWaitAck { t with idx := 0#5 } else t

/-- TX_WAIT_ACK, a byte received (R229). -/
def waitAckGot (b : Byte) (s : State) : State :=
  if b = Config.ackByte then complete s
  else if s.settings.strayFail then abort .protocol .ack s
  else s

/-- TOK_SEND, a byte taken (R232). -/
def tokenSent (s : State) : State :=
  let t := { s with idx := s.idx + 1#5, progress := s.progress + 1#32 }
  if t.idx = t.settings.tokenLen then enter .tokWait { t with idx := 0#5 } else t

/-- TOK_WAIT, a byte received (R233). -/
def tokWaitGot (b : Byte) (s : State) : State :=
  if b = Config.readyByte then complete s
  else if s.settings.strayFail then abort .protocol .token s
  else s

end Sys2Proof.Machine
end

