-- ==== Sys2Proof/Machine/Engine.lean ====
section
/-!
DEFINITION. The events by state: the dispatch table of spec/40_engine.md R143, the tick timer and the deadlines
(R150, R151), and a byte that the transport offers or takes (spec/10_state.md R34, R35).
-/

namespace Sys2Proof.Machine

/-- RxByte(b) in the current state (R143). Where `rx_ready` is 0 the event does not happen. -/
def rxByte (b : Byte) (s : State) : State :=
  match s.st with
  | .txWaitReady => waitReadyGot b s
  | .txWaitAck => waitAckGot b s
  | .rxWaitSync => waitSyncGot b s
  | .rxHdr => rxHdrGot b s
  | .rxPayload => rxPayloadGot b s
  | .rxCrc => rxCrcGot b s
  | .tokWait => tokWaitGot b s
  | .idle | .txHdr | .txPayload | .txGap | .txDrain | .txCrc | .rxReady | .rxValidate | .rxAck | .tokSend => s

/-- The transport offers the byte `b`, the oldest it holds. EDLINK takes it where `rx_ready` is 1; elsewhere it stays
in the transport, neither read nor discarded (R34, R35). -/
def offerByte (b : Byte) (s : State) : State :=
  if rxReady s then rxByte b s else { s with link := { s.link with held := b :: s.link.held } }

/-- TxByte in the current state, the byte taken being `b` (R143). Where `tx_valid` is 0 the event does not happen. -/
def txByte (b : Byte) (s : State) : State :=
  match s.st with
  | .txHdr => txHdrSent s
  | .txPayload => txPayloadSent b s
  | .txCrc => txCrcSent s
  | .rxReady => readySent s
  | .rxAck => ackSent s
  | .tokSend => tokenSent s
  | .idle | .txWaitReady | .txGap | .txDrain | .txWaitAck | .rxWaitSync | .rxHdr | .rxPayload | .rxCrc | .rxValidate
  | .tokWait => s

/-- The transport takes the byte `b`: it does where EDLINK offers that byte, and the byte is then on the wire (R34,
R36, R91). Where EDLINK does not offer it, it does not pass. -/
def takeByte (b : Byte) (s : State) : State :=
  if txData s = some b then txByte b { s with link := { s.link with wire := s.link.wire ++ [b] } } else s

/-- A byte at the format position passes: out of EDLINK in TX_HDR, into it elsewhere (R104). -/
def passFormatByte (b : Byte) (s : State) : State :=
  if s.st = .txHdr then takeByte b s else offerByte b s

/-- `sat32(v + 1)` (R12, R150). -/
def satInc (v : Word) : Word := if v = 0xFFFFFFFF#32 then v else v + 1#32

/-- The deadline check of R151: `if DL != 0 and TIMER >= DL: raise`. -/
def deadline (dl : Word) (code : ErrCode) (wait : ErrWait) (s : State) : State :=
  if dl ≠ 0#32 ∧ s.timer ≥ dl then abort code wait s else s

/-- What a tick decides in the current state, after TIMER counted it (R143, R151, R225). -/
def tickRule (s : State) : State :=
  match s.st with
  | .txWaitReady => deadline s.settings.readyDl .timeout .ready s
  | .txWaitAck => deadline s.settings.ackDl .timeout .ack s
  | .tokWait => deadline s.settings.readyDl .protocol .token s
  | .rxWaitSync => deadline s.settings.syncDl .timeout .sync s
  | .rxHdr => deadline s.settings.byteDl .timeout .header s
  | .rxPayload => deadline s.settings.byteDl .timeout .payload s
  | .rxCrc => deadline s.settings.byteDl .timeout .crc s
  | .txGap => txGapTick s
  | .idle | .txHdr | .txPayload | .txDrain | .txCrc | .rxReady | .rxValidate | .rxAck | .tokSend => s

/-- Tick (R150): no effect in IDLE. -/
def tickStep (s : State) : State :=
  if s.st = .idle then s else tickRule { s with timer := satInc s.timer }

/-- Drain: enabled in TX_DRAIN only (R140, R227). -/
def drainStep (s : State) : State := if s.st = .txDrain then drained s else s

/-- Internal: enabled in RX_VALIDATE only (R140, R266). -/
def internalStep (s : State) : State := if s.st = .rxValidate then validate s else s

end Sys2Proof.Machine
end

