-- ==== Sys2Proof/Machine/Registers.lean ====
section
/-!
DEFINITION. The host register map of spec/10_state.md R38: the offsets, what each register reads as (R39 to R58),
and what a plain write stores (R158). The registers with side effects are in HostAccess.lean.
-/

namespace Sys2Proof.Machine

/-- The registers of R38. -/
inductive Reg where
  | ctrl | cmd | status | txFmt | txTag | txCount | rxFmt | rxTag | rxCount | len | lenHi | progress | timer
  | crcAcc | crcFeed | crcRx | readyDl | ackDl | syncDl | byteDl | gap | cfg | tokenLen | token0 | token1 | token2
  | token3 | elemFmt | elemIdx | elemData | pbufSize
  deriving DecidableEq, Repr

/-- A register's byte offset (R38). -/
def regOffset : Reg → Nat
  | .ctrl => 0x000
  | .cmd => 0x004
  | .status => 0x008
  | .txFmt => 0x00C
  | .txTag => 0x010
  | .txCount => 0x014
  | .rxFmt => 0x018
  | .rxTag => 0x01C
  | .rxCount => 0x020
  | .len => 0x024
  | .lenHi => 0x028
  | .progress => 0x02C
  | .timer => 0x030
  | .crcAcc => 0x034
  | .crcFeed => 0x038
  | .crcRx => 0x03C
  | .readyDl => 0x040
  | .ackDl => 0x044
  | .syncDl => 0x048
  | .byteDl => 0x04C
  | .gap => 0x050
  | .cfg => 0x054
  | .tokenLen => 0x058
  | .token0 => 0x05C
  | .token1 => 0x060
  | .token2 => 0x064
  | .token3 => 0x068
  | .elemFmt => 0x06C
  | .elemIdx => 0x070
  | .elemData => 0x074
  | .pbufSize => 0x078

/-- Every register, in the map's order. -/
def allRegs : List Reg :=
  [.ctrl, .cmd, .status, .txFmt, .txTag, .txCount, .rxFmt, .rxTag, .rxCount, .len, .lenHi, .progress, .timer,
    .crcAcc, .crcFeed, .crcRx, .readyDl, .ackDl, .syncDl, .byteDl, .gap, .cfg, .tokenLen, .token0, .token1,
    .token2, .token3, .elemFmt, .elemIdx, .elemData, .pbufSize]

/-- The register at a byte offset, if any: not a reserved, misaligned or too wide one (R39, R78). -/
def regAt (p : Params) (off : Nat) : Option Reg :=
  if off < 2 ^ p.hostAddrW then allRegs.find? (fun r => regOffset r == off) else none

/-- What a register reads as, reserved bits 0 (R39, R158). ELEM_DATA's value is the element's, where in range (R180). -/
def regValue (s : State) : Reg → Word
  | .ctrl => 0#32
  | .cmd => 0#32
  | .status => statusWord s
  | .txFmt => s.settings.txFmt.setWidth 32
  | .txTag => s.settings.txTag.setWidth 32
  | .txCount => s.settings.txCount
  | .rxFmt => 0#16 ++ s.rxCode ++ s.rxRaw
  | .rxTag => s.rxTag.setWidth 32
  | .rxCount => s.rxCount
  | .len => s.len34.extractLsb' 0 32
  | .lenHi => (s.len34.extractLsb' 32 2).setWidth 32
  | .progress => s.progress
  | .timer => s.timer
  | .crcAcc => s.acc.setWidth 32
  | .crcFeed => 0#32
  | .crcRx => s.crcRx.setWidth 32
  | .readyDl => s.settings.readyDl
  | .ackDl => s.settings.ackDl
  | .syncDl => s.settings.syncDl
  | .byteDl => s.settings.byteDl
  | .gap => s.settings.gap
  | .cfg => 0#30 ++ BitVec.ofBool s.settings.mismatchAck ++ BitVec.ofBool s.settings.strayFail
  | .tokenLen => s.settings.tokenLen.setWidth 32
  | .token0 => s.settings.token0
  | .token1 => s.settings.token1
  | .token2 => s.settings.token2
  | .token3 => s.settings.token3
  | .elemFmt => s.elemFmt.setWidth 32
  | .elemIdx => s.elemIdx
  | .elemData =>
    match elemAt s with
    | some (f, off) => elemDecode f (memRead s off (width f))
    | none => 0#32
  | .pbufSize => BitVec.ofNat 32 s.params.pbufBytes

/-- The write-any-read-legal value of TOKEN_LEN: `min(v[4:0], 16)` (R56). -/
def legalTokenLen (v : Word) : BitVec 5 :=
  let n : BitVec 5 := v.extractLsb' 0 5
  if n > 16#5 then 16#5 else n

/-- A locked register's fields with `v` stored in one of them (R44 to R46, R53 to R56); no other register is among
the settings. -/
def storeSetting (r : Reg) (v : Word) (c : Settings) : Settings :=
  match r with
  | .txFmt => { c with txFmt := v.extractLsb' 0 8 }
  | .txTag => { c with txTag := v.extractLsb' 0 8 }
  | .txCount => { c with txCount := v }
  | .readyDl => { c with readyDl := v }
  | .ackDl => { c with ackDl := v }
  | .syncDl => { c with syncDl := v }
  | .byteDl => { c with byteDl := v }
  | .gap => { c with gap := v }
  | .cfg => { c with strayFail := v.getLsbD 0, mismatchAck := v.getLsbD 1 }
  | .tokenLen => { c with tokenLen := legalTokenLen v }
  | .token0 => { c with token0 := v }
  | .token1 => { c with token1 := v }
  | .token2 => { c with token2 := v }
  | .token3 => { c with token3 := v }
  | .ctrl | .cmd | .status | .rxFmt | .rxTag | .rxCount | .len | .lenHi | .progress | .timer | .crcAcc | .crcFeed
  | .crcRx | .elemFmt | .elemIdx | .elemData | .pbufSize => c

/-- A plain write of a locked setting, while BUSY = 0 (R158). -/
def writeSetting (r : Reg) (v : Word) (s : State) : State := { s with settings := storeSetting r v s.settings }

end Sys2Proof.Machine
end

