-- ==== Sys2Proof/Machine/HostAccess.lean ====
section
/-!
DEFINITION. What the host's accesses do: command acceptance (spec/40_engine.md R144), CTRL (R155, R156), the checksum
feed (spec/42_checksum.md R205), element and window access (spec/41_frame_codec.md R180, R181; spec/20_memory.md R72),
and a read or write of any offset (R38, R39, R78, R158).
-/

namespace Sys2Proof.Machine

/-- A command other than NOP is rejected while busy; no command is queued (R144, R345). -/
def acceptCommand (start : State → State) (s : State) : State := if busy s then rejectCommand s else start s

/-- A write of `v` to CMD, as R144's pseudocode orders its checks (R305). -/
def commandWrite (v : Word) (s : State) : State :=
  match (v.extractLsb' 0 8 : Byte).toNat with
  | 0 => s
  | 1 => acceptCommand startSendData s
  | 2 => acceptCommand startRecvData s
  | 3 => acceptCommand startSendToken s
  | 4 => acceptCommand initAcc s
  | _ => rejectCommand s

/-- A write to CTRL: CLEAR is judged on BUSY before the write, then CANCEL (R40, R155). -/
def ctrlWrite (cancel clear : Bool) (s : State) : State :=
  let t := if clear then clearRecord s else s
  if cancel then cancelTransfer t else t

/-- A write of `v` to CRC_FEED (R205). -/
def crcFeedWrite (v : Word) (s : State) : State := lockedWrite (feedAcc (v.extractLsb' 0 8)) s

/-- A read of ELEM_DATA (R180). -/
def elemDataRead (s : State) : State :=
  match elemAt s with
  | some (f, off) => returnWord (elemDecode f (memRead s off (width f))) s
  | none => returnWord 0#32 (elemError s)

/-- A write of `v` to ELEM_DATA while BUSY = 0 (R181). -/
def elemStore (v : Word) (s : State) : State :=
  match elemAt s with
  | some (f, off) => memWrite off v (width f) s
  | none => elemError s

/-- A write of `v` to ELEM_DATA (R181). -/
def elemDataWrite (v : Word) (s : State) : State := lockedWrite (elemStore v) s

/-- A read of window word `k`; above the window the offset is reserved (R72, R78). -/
def windowRead (k : Nat) (s : State) : State :=
  if 4 * k + 4 ≤ s.params.pbufBytes then returnWord (memRead s (4 * k) 4) s else returnWord 0#32 s

/-- A write of `v` to window word `k`; above the window the offset is reserved and the write is ignored (R72, R78). -/
def windowWrite (k : Nat) (v : Word) (s : State) : State :=
  if 4 * k + 4 ≤ s.params.pbufBytes then lockedWrite (memWrite (4 * k) v 4) s else s

/-- A write of `v` to a register (R38, R39, R40, R41, R57, R153, R158). -/
def regStore (r : Reg) (v : Word) (s : State) : State :=
  match r with
  | .ctrl => ctrlWrite (v.getLsbD 0) (v.getLsbD 1) s
  | .cmd => commandWrite v s
  | .crcFeed => crcFeedWrite v s
  | .elemData => elemDataWrite v s
  | .elemFmt => { s with elemFmt := v.extractLsb' 0 8 }
  | .elemIdx => { s with elemIdx := v }
  | .txFmt | .txTag | .txCount | .readyDl | .ackDl | .syncDl | .byteDl | .gap | .cfg | .tokenLen | .token0 | .token1
  | .token2 | .token3 => lockedWrite (writeSetting r v) s
  | .status | .rxFmt | .rxTag | .rxCount | .len | .lenHi | .progress | .timer | .crcAcc | .crcRx | .pbufSize => s

/-- A read of a register (R38, R80): the one with a side effect is ELEM_DATA. -/
def regLoad (r : Reg) (s : State) : State :=
  if r = .elemData then elemDataRead s else returnWord (regValue s r) s

/-- A host word read of any offset (R38, R72, R78). -/
def hostRead (off : Nat) (s : State) : State :=
  match windowIndex s.params off with
  | some k => windowRead k s
  | none =>
    match regAt s.params off with
    | some r => regLoad r s
    | none => returnWord 0#32 s

/-- A host word write of `v` to any offset (R38, R72, R78). -/
def hostWrite (off : Nat) (v : Word) (s : State) : State :=
  match windowIndex s.params off with
  | some k => windowWrite k v s
  | none =>
    match regAt s.params off with
    | some r => regStore r v s
    | none => s

end Sys2Proof.Machine
end

