-- ==== Sys2Proof/Machine/Accesses.lean ====
section
/-!
DEFINITION. The meanings of the HOST_READ and HOST_WRITE rows (spec/30_encoding.md R113). Each host access is one
atomic step (spec/20_memory.md R79).
-/

namespace Sys2Proof.Machine

/-- CANCEL, with CLEAR in the same write if `clr` (R155). -/
def execCancel (clr : Bool) (_hi : BitVec 30) (s : State) : Host.Outcome State Fault Refusal :=
  .next (ctrlWrite true clr s)

/-- CLEAR (R156). -/
def execClear (_hi : BitVec 30) (s : State) : Host.Outcome State Fault Refusal := .next (ctrlWrite false true s)

/-- CRC_FEED (R205). -/
def execCrcFeed (v : Word) (s : State) : Host.Outcome State Fault Refusal := .next (crcFeedWrite v s)

/-- ELEM_READ (R180). -/
def execElemRead (s : State) : Host.Outcome State Fault Refusal := .next (elemDataRead s)

/-- ELEM_WRITE (R181). -/
def execElemWrite (v : Word) (s : State) : Host.Outcome State Fault Refusal := .next (elemDataWrite v s)

/-- WIN_READ (R72). -/
def execWinRead (k : Nat) (s : State) : Host.Outcome State Fault Refusal := .next (windowRead k s)

/-- WIN_WRITE (R72). -/
def execWinWrite (k : Nat) (v : Word) (s : State) : Host.Outcome State Fault Refusal := .next (windowWrite k v s)

/-- REG_READ (R158). -/
def execRegRead (off : Nat) (s : State) : Host.Outcome State Fault Refusal := .next (hostRead off s)

/-- REG_WRITE (R158). -/
def execRegWrite (off : Nat) (v : Word) (s : State) : Host.Outcome State Fault Refusal :=
  .next (hostWrite off v s)

end Sys2Proof.Machine
end

