-- ==== Sys2Proof/Machine/Commands.lean ====
section
/-!
DEFINITION. The meanings of the CMD rows (spec/30_encoding.md R110, R111): each is one event HostWrite(0x004, v).
The ignored bits v[31:8] have no effect.
-/

namespace Sys2Proof.Machine

/-- NOP: no effect in any state, never rejected (R157). -/
def execNop (_hi : BitVec 24) (s : State) : Host.Outcome State Fault Refusal := .next s

/-- SEND_DATA (R220, R144). -/
def execSendData (_hi : BitVec 24) (s : State) : Host.Outcome State Fault Refusal :=
  .next (acceptCommand startSendData s)

/-- RECV_DATA (R260, R144). -/
def execRecvData (_hi : BitVec 24) (s : State) : Host.Outcome State Fault Refusal :=
  .next (acceptCommand startRecvData s)

/-- SEND_TOKEN (R230, R144). -/
def execSendToken (_hi : BitVec 24) (s : State) : Host.Outcome State Fault Refusal :=
  .next (acceptCommand startSendToken s)

/-- CRC_INIT (R204, R144). -/
def execCrcInit (_hi : BitVec 24) (s : State) : Host.Outcome State Fault Refusal :=
  .next (acceptCommand initAcc s)

/-- RESERVED_CMD 0x05: CMD_REJ is set and nothing else changes (R111). -/
def execReserved05 (_hi : BitVec 24) (s : State) : Host.Outcome State Fault Refusal := .next (rejectCommand s)

/-- RESERVED_CMD 0x06, 0x07 (R111). -/
def execReserved06 (_low : BitVec 1) (_hi : BitVec 24) (s : State) : Host.Outcome State Fault Refusal :=
  .next (rejectCommand s)

/-- RESERVED_CMD 0x08..0x0F (R111). -/
def execReserved08 (_low : BitVec 3) (_hi : BitVec 24) (s : State) : Host.Outcome State Fault Refusal :=
  .next (rejectCommand s)

/-- RESERVED_CMD 0x10..0x1F (R111). -/
def execReserved10 (_low : BitVec 4) (_hi : BitVec 24) (s : State) : Host.Outcome State Fault Refusal :=
  .next (rejectCommand s)

/-- RESERVED_CMD 0x20..0x3F (R111). -/
def execReserved20 (_low : BitVec 5) (_hi : BitVec 24) (s : State) : Host.Outcome State Fault Refusal :=
  .next (rejectCommand s)

/-- RESERVED_CMD 0x40..0x7F (R111). -/
def execReserved40 (_low : BitVec 6) (_hi : BitVec 24) (s : State) : Host.Outcome State Fault Refusal :=
  .next (rejectCommand s)

/-- RESERVED_CMD 0x80..0xFF (R111). -/
def execReserved80 (_low : BitVec 7) (_hi : BitVec 24) (s : State) : Host.Outcome State Fault Refusal :=
  .next (rejectCommand s)

end Sys2Proof.Machine
end

