-- ==== Sys2Proof/Machine/WireBytes.lean ====
section
/-!
DEFINITION. The meanings of the WIRE_IN, WIRE_OUT and FMT_BYTE rows (spec/30_encoding.md R104, R106): the byte passes,
and what it does is the rule of the current state (spec/40_engine.md R143). A byte equal to a marker inside a field is
data (spec/20_memory.md R82): the same event, judged by the state it meets.
-/

namespace Sys2Proof.Machine

/-- SYNC_OUT: the transport takes 0x3C, the first byte of every outbound frame (R172, R222). -/
def execSyncOut (s : State) : Host.Outcome State Fault Refusal := .next (takeByte Config.txSync s)

/-- SYNC_IN: the transport offers 0x3E, awaited in RX_WAIT_SYNC (R261). -/
def execSyncIn (s : State) : Host.Outcome State Fault Refusal := .next (offerByte Config.rxSync s)

/-- READY_OUT: the transport takes 0x61, sent in RX_READY (R263). -/
def execReadyOut (s : State) : Host.Outcome State Fault Refusal := .next (takeByte Config.readyByte s)

/-- READY_IN: the transport offers 0x61, awaited in TX_WAIT_READY and TOK_WAIT (R223, R233). -/
def execReadyIn (s : State) : Host.Outcome State Fault Refusal := .next (offerByte Config.readyByte s)

/-- ACK_OUT: the transport takes 0x5E, sent in RX_ACK (R267). -/
def execAckOut (s : State) : Host.Outcome State Fault Refusal := .next (takeByte Config.ackByte s)

/-- ACK_IN: the transport offers 0x5E, awaited in TX_WAIT_ACK (R229). -/
def execAckIn (s : State) : Host.Outcome State Fault Refusal := .next (offerByte Config.ackByte s)

/-- FMT_UINT8 (R105). -/
def execFmtUint8 (flags : BitVec 2) (s : State) : Host.Outcome State Fault Refusal :=
  .next (passFormatByte (formatByte flags 0#4) s)

/-- FMT_INT8 (R105). -/
def execFmtInt8 (flags : BitVec 2) (s : State) : Host.Outcome State Fault Refusal :=
  .next (passFormatByte (formatByte flags 1#4) s)

/-- FMT_UINT16 (R105). -/
def execFmtUint16 (flags : BitVec 2) (s : State) : Host.Outcome State Fault Refusal :=
  .next (passFormatByte (formatByte flags 2#4) s)

/-- FMT_INT16 (R105). -/
def execFmtInt16 (flags : BitVec 2) (s : State) : Host.Outcome State Fault Refusal :=
  .next (passFormatByte (formatByte flags 3#4) s)

/-- FMT_UINT32 (R105). -/
def execFmtUint32 (flags : BitVec 2) (s : State) : Host.Outcome State Fault Refusal :=
  .next (passFormatByte (formatByte flags 4#4) s)

/-- FMT_INT32 (R105). -/
def execFmtInt32 (flags : BitVec 2) (s : State) : Host.Outcome State Fault Refusal :=
  .next (passFormatByte (formatByte flags 5#4) s)

end Sys2Proof.Machine
end

