-- ==== Sys2Proof/Machine/Dispatch.lean ====
section
/-! DEFINITION. One arm per row of spec/opcode_table.json. -/

namespace Sys2Proof.Machine

def exec (i : Instr) (s : State) : Host.Outcome State Fault Refusal :=
  match i with
  | .nop hi => Sys2Proof.Machine.execNop hi s
  | .sendData hi => Sys2Proof.Machine.execSendData hi s
  | .recvData hi => Sys2Proof.Machine.execRecvData hi s
  | .sendToken hi => Sys2Proof.Machine.execSendToken hi s
  | .crcInit hi => Sys2Proof.Machine.execCrcInit hi s
  | .reserved05 hi => Sys2Proof.Machine.execReserved05 hi s
  | .reserved06 low hi => Sys2Proof.Machine.execReserved06 low hi s
  | .reserved08 low hi => Sys2Proof.Machine.execReserved08 low hi s
  | .reserved10 low hi => Sys2Proof.Machine.execReserved10 low hi s
  | .reserved20 low hi => Sys2Proof.Machine.execReserved20 low hi s
  | .reserved40 low hi => Sys2Proof.Machine.execReserved40 low hi s
  | .reserved80 low hi => Sys2Proof.Machine.execReserved80 low hi s
  | .cancel clr hi => Sys2Proof.Machine.execCancel clr hi s
  | .clear hi => Sys2Proof.Machine.execClear hi s
  | .crcFeed v => Sys2Proof.Machine.execCrcFeed v s
  | .elemRead => Sys2Proof.Machine.execElemRead s
  | .elemWrite v => Sys2Proof.Machine.execElemWrite v s
  | .winRead k => Sys2Proof.Machine.execWinRead k s
  | .winWrite k v => Sys2Proof.Machine.execWinWrite k v s
  | .regRead off => Sys2Proof.Machine.execRegRead off s
  | .regWrite off v => Sys2Proof.Machine.execRegWrite off v s
  | .syncOut => Sys2Proof.Machine.execSyncOut s
  | .syncIn => Sys2Proof.Machine.execSyncIn s
  | .readyOut => Sys2Proof.Machine.execReadyOut s
  | .readyIn => Sys2Proof.Machine.execReadyIn s
  | .ackOut => Sys2Proof.Machine.execAckOut s
  | .ackIn => Sys2Proof.Machine.execAckIn s
  | .fmtUint8 flags => Sys2Proof.Machine.execFmtUint8 flags s
  | .fmtInt8 flags => Sys2Proof.Machine.execFmtInt8 flags s
  | .fmtUint16 flags => Sys2Proof.Machine.execFmtUint16 flags s
  | .fmtInt16 flags => Sys2Proof.Machine.execFmtInt16 flags s
  | .fmtUint32 flags => Sys2Proof.Machine.execFmtUint32 flags s
  | .fmtInt32 flags => Sys2Proof.Machine.execFmtInt32 flags s

end Sys2Proof.Machine
end

