-- ==== Sys2Proof/Machine/Fetch.lean ====
section
/-!
DEFINITION. Fetching: the next event of the schedule, and whether it is a row of the opcode table. The events that no
row names (Tick, Drain, Internal, Reset, power-on, a data byte, and the environment's own moves) have their whole
effect here (spec/40_engine.md R140 to R143).
-/

namespace Sys2Proof.Machine

/-- What a fetch finds. -/
inductive Fetched where
  /-- an instruction, and the state it runs in: the event consumed, and the byte a transport offers out of its hands -/
  | instr (i : Instr) (s : State)
  /-- an event that is no instruction, with its outcome -/
  | event (o : Host.Outcome State Fault Refusal)

/-- The byte at the format position is the first after the sync byte: of the inbound header in RX_HDR, of the outbound
one in TX_HDR (R101, R102, R104). -/
def inWord (s : State) (b : Byte) : RawWord :=
  if s.st = .rxHdr ∧ s.idx = 0#5 then ⟨.fmtByte, [b]⟩ else ⟨.wireIn, [b]⟩

/-- As `inWord`, for a byte EDLINK sends. -/
def outWord (s : State) (b : Byte) : RawWord :=
  if s.st = .txHdr ∧ s.idx = 1#5 then ⟨.fmtByte, [b]⟩ else ⟨.wireOut, [b]⟩

/-- A table word is the instruction it decodes to; a byte that no row names is plain data, with the effect `data`. -/
def fetchWord (w : RawWord) (data : State → State) (s : State) : Fetched :=
  match decode s.params w with
  | .instr i => .instr i s
  | .rejected _ => .event (.next (data s))

/-- A host access of 32 bits is a table word; of any other width it is refused (R77, R142). -/
def fetchAccess (width : AccessWidth) (w : RawWord) (s : State) : Fetched :=
  if width = .w32 then fetchWord w id s else .event (.refused (.hostAccessWidth width))

/-- One event, in the state where the schedule has passed it (R140). An event that is not enabled does not happen. -/
def fetchEvent (e : Event) (s : State) : Fetched :=
  match e with
  | .hostWrite width off v => fetchAccess width (writeWord off v) s
  | .hostRead width off => fetchAccess width (readWord off) s
  | .rx =>
    match s.link.held with
    | [] => .event (.next s)
    | b :: rest => fetchWord (inWord s b) (offerByte b) { s with link := { s.link with held := rest } }
  | .tx =>
    match txData s with
    | none => .event (.next s)
    | some b => fetchWord (outWord s b) (takeByte b) s
  | .drain => .event (.next (drainStep s))
  | .tick => .event (.next (tickStep s))
  | .internal => .event (.next (internalStep s))
  | .reset => .event (.next (resetStep s))
  | .powerOn => .event (.next (powerOnStep s))
  | .peerByte b => .event (.next { s with link := { s.link with held := s.link.held ++ [b] } })
  | .linkLevel isOpen => .event (.next { s with link := { s.link with linkOpen := isOpen } })

/-- The next event of the schedule. With none scheduled, only EDLINK itself can act: its internal step where it is
enabled, else nothing happens (R141; assumption log 3). -/
def fetch (s : State) : Fetched :=
  match s.script with
  | [] => .event (.next (internalStep s))
  | e :: rest => fetchEvent e { s with script := rest }

/-- `s` with a table word placed as its next event, and with the state the word's own row needs to be the next one:
the byte in the transport's hands, and for a wire row the state that offers or awaits that byte. -/
def placeWord (w : RawWord) (s : State) : State :=
  match w.format, w.bytes with
  | .cmd, [b0, b1, b2, b3] =>
    { s with script := .hostWrite .w32 0x004 (wordOfBytes b0 b1 b2 b3) :: s.script }
  | .hostWrite, bytes =>
    match splitAccess bytes with
    | some (off, v) => { s with script := .hostWrite .w32 off v :: s.script }
    | none => s
  | .hostRead, bytes =>
    match readOffset bytes with
    | some off => { s with script := .hostRead .w32 off :: s.script }
    | none => s
  | .wireOut, [b] =>
    { s with
      script := .tx :: s.script
      idx := 0#5
      st := if b = Config.txSync then .txHdr else if b = Config.readyByte then .rxReady else .rxAck }
  | .wireIn, [b] =>
    { s with
      script := .rx :: s.script
      link := { s.link with held := b :: s.link.held }
      idx := 0#5
      st := if b = Config.rxSync then .rxWaitSync else if b = Config.readyByte then .txWaitReady else .txWaitAck }
  | .fmtByte, [b] =>
    { s with
      script := .rx :: s.script, link := { s.link with held := b :: s.link.held }, idx := 0#5, st := .rxHdr }
  | _, _ => s

end Sys2Proof.Machine
end

