-- ==== Sys2Proof/Machine/Step.lean ====
section
/-!
DEFINITION. One step: exactly one event (spec/40_engine.md R140), fetched from the schedule; an instruction of the
opcode table runs through `exec`. And where the host's questions place a table word.
-/

namespace Sys2Proof.Machine

/-- One step of the whole machine. -/
def step (s : State) : Host.Outcome State Fault Refusal :=
  match fetch s with
  | .instr i t => exec i t
  | .event o => o

/-- `s` with the table word of bits `w` as the next event (assumption logs 5 and 6). -/
def State.withFetchWord (s : State) (nbits w : Nat) : State := placeWord (tableWord nbits w) s

end Sys2Proof.Machine
end

