-- ==== Sys2Proof/Safety.lean ====
section
/-!
DEFINITION. What the claims mean by a sound state: the invariants of a running EDLINK, written from the spec's
statements about the whole machine, and the spec's tables in the form the claims use them. Nothing here is read by
the machine.
-/

namespace Sys2Proof.Machine

/-! ### Numbers the claims speak of -/

/-- The element widths of R105 by format byte; other bytes have none (R170). -/
def specWidth (f : Byte) : Option Nat := [1, 1, 2, 2, 4, 4][f.toNat]?

/-- The code numbers of the states (R31). -/
def stateNumber : St → Nat
  | .idle => 0
  | .txHdr => 1
  | .txWaitReady => 2
  | .txPayload => 3
  | .txGap => 4
  | .txDrain => 5
  | .txCrc => 6
  | .txWaitAck => 7
  | .rxWaitSync => 8
  | .rxHdr => 9
  | .rxReady => 10
  | .rxPayload => 11
  | .rxCrc => 12
  | .rxValidate => 13
  | .rxAck => 14
  | .tokSend => 15
  | .tokWait => 16

/-- The code numbers of the errors (R300). -/
def errorNumber : ErrCode → Nat
  | .none => 0
  | .connection => 1
  | .protocol => 2
  | .timeout => 3
  | .checksumMismatch => 4
  | .unsupportedType => 5
  | .capacity => 6
  | .cancelled => 7

/-- The numbers of the wait ids (R301). -/
def waitNumber : ErrWait → Nat
  | .none => 0
  | .sync => 1
  | .header => 2
  | .ready => 3
  | .payload => 4
  | .crc => 5
  | .ack => 6
  | .token => 7

/-- The little-endian number in the `n` bytes of PBUF from `off` (R73). -/
def pbufNumber (s : State) (off : Nat) : Nat → Nat
  | 0 => 0
  | n + 1 => (pbufByte s off).toNat + 256 * pbufNumber s (off + 1) n

/-- The checksum of PBUF's first `n` bytes: the seed plus the bytes (R206). -/
def prefixSum (s : State) : Nat → Sum16
  | 0 => 0x1234#16
  | n + 1 => prefixSum s n + (pbufByte s n).setWidth 16

/-- The checksum of a byte sequence from the accumulator `acc` (R202). -/
def sumBytes (acc : Sum16) (bs : List Byte) : Sum16 := bs.foldl sumUpdate acc

/-- The deadline table of R151: in a wait state, the deadline register's value, the error and the wait id. -/
def waitBound (s : State) : Option (Word × ErrCode × ErrWait) :=
  match s.st with
  | .txWaitReady => some (s.settings.readyDl, .timeout, .ready)
  | .txWaitAck => some (s.settings.ackDl, .timeout, .ack)
  | .tokWait => some (s.settings.readyDl, .protocol, .token)
  | .rxWaitSync => some (s.settings.syncDl, .timeout, .sync)
  | .rxHdr => some (s.settings.byteDl, .timeout, .header)
  | .rxPayload => some (s.settings.byteDl, .timeout, .payload)
  | .rxCrc => some (s.settings.byteDl, .timeout, .crc)
  | .idle | .txHdr | .txPayload | .txGap | .txDrain | .txCrc | .rxReady | .rxValidate | .rxAck | .tokSend => none

/-- STATUS with the fields that a transfer's start clears (R145). -/
def startedStatus (c : Status) : Status :=
  { c with done := false, error := false, crcMatch := false, errCode := .none, errWait := .none }

/-- STATUS with an abort's record (R154). -/
def abortedStatus (code : ErrCode) (wait : ErrWait) (c : Status) : Status :=
  { c with error := true, done := false, errCode := code, errWait := wait }

/-- What R145 with R154 leave of a state whose transfer command aborts at once with length `len` recorded. -/
def failedStart (code : ErrCode) (len : Len34) (s : State) : State :=
  { s with
    st := .idle
    idx := 0#5
    chunkCnt := 0#4
    status := abortedStatus code .none (startedStatus s.status)
    len34 := len
    progress := 0#32
    timer := 0#32 }

/-- What R154 leaves of a state whose transfer aborts. -/
def aborted (code : ErrCode) (wait : ErrWait) (s : State) : State :=
  { s with st := .idle, idx := 0#5, chunkCnt := 0#4, status := abortedStatus code wait s.status }

/-- What R152 leaves of a state whose transfer completes. -/
def completed (s : State) : State :=
  { s with st := .idle, idx := 0#5, chunkCnt := 0#4, status := { s.status with done := true } }

/-- The schedule passed its next event. -/
def passed (rest : List Event) (s : State) : State := { s with script := rest }

/-- The schedule passed an offer of the transport, which no longer holds the byte. -/
def handedOver (more : List Byte) (rest : List Event) (s : State) : State :=
  { s with script := rest, link := { s.link with held := more } }

/-- The schedule passed a TxByte, and `b` is on the wire. -/
def sent (b : Byte) (rest : List Event) (s : State) : State :=
  { s with script := rest, link := { s.link with wire := s.link.wire ++ [b] } }

/-- A sender left alone with a willing transport: it sends the byte it offers, and ticks pass in a pause. -/
def sendOn (s : State) : State :=
  match s.st with
  | .txGap => tickStep s
  | .idle | .txHdr | .txWaitReady | .txPayload | .txDrain | .txCrc | .txWaitAck | .rxWaitSync | .rxHdr | .rxReady
  | .rxPayload | .rxCrc | .rxValidate | .rxAck | .tokSend | .tokWait =>
    match txData s with
    | some b => takeByte b s
    | none => s

/-- PBUF's `n` bytes from `off`, in increasing offset order. -/
def pbufBytesFrom (s : State) (off : Nat) : Nat → List Byte
  | 0 => []
  | n + 1 => pbufByte s off :: pbufBytesFrom s (off + 1) n

/-! ### Invariants -/

/-- PBUF is in canonical form and holds no byte outside the buffer (R70). -/
def MemoryInv (s : State) : Prop := s.pbuf.wf ∧ s.pbuf.within s.params.pbufBytes

/-- The legal registers: TOKEN_LEN at most 16 (R56), RX_FMT.CODE the masked RX_FMT.RAW (R47). -/
def RegisterInv (s : State) : Prop := s.settings.tokenLen.toNat ≤ 16 ∧ s.rxCode = s.rxRaw &&& 0xCF#8

/-- The pairs of error code and wait id of R302's table. -/
def errorPairs : List (ErrCode × ErrWait) :=
  [(.connection, .none), (.unsupportedType, .none), (.capacity, .none), (.timeout, .ready), (.protocol, .ready),
    (.timeout, .ack), (.protocol, .ack), (.protocol, .token), (.timeout, .sync), (.timeout, .header),
    (.protocol, .header), (.capacity, .header), (.timeout, .payload), (.timeout, .crc), (.checksumMismatch, .none),
    (.cancelled, .none)]

/-- STATUS is a legal record: never DONE and ERROR together (R42), an error record exactly where ERROR is set and
then one of R302's, and while a transfer runs neither DONE nor ERROR (R145). -/
def StatusInv (s : State) : Prop :=
  ¬(s.status.done = true ∧ s.status.error = true) ∧
  (s.status.error = true → (s.status.errCode, s.status.errWait) ∈ errorPairs) ∧
  (s.status.error = false → s.status.errCode = .none ∧ s.status.errWait = .none) ∧
  (busy s = true → s.status.done = false ∧ s.status.error = false)

/-- The length of an outbound frame: TX_COUNT elements of TX_FMT's width, which fit in PBUF (R177, R221). -/
def TxLength (s : State) : Prop :=
  ∃ w, specWidth s.settings.txFmt = some w ∧ s.len34.toNat = s.settings.txCount.toNat * w ∧
    s.len34.toNat ≤ s.params.pbufBytes

/-- The length of an inbound frame: RX_COUNT elements of RX_FMT.CODE's width, which fit in PBUF (R177, R262). -/
def RxLength (s : State) : Prop :=
  ∃ w, specWidth s.rxCode = some w ∧ s.len34.toNat = s.rxCount.toNat * w ∧ s.len34.toNat ≤ s.params.pbufBytes

/-- Where each state stands in its transfer: the ranges of IDX (R33, R148) and CHUNK_CNT (R33, R224), and how far
PROGRESS is against the length (R50, R224, R264). -/
def PositionInv (s : State) : Prop :=
  match s.st with
  | .idle => s.idx = 0#5 ∧ s.chunkCnt = 0#4
  | .txHdr => s.idx.toNat ≤ 6 ∧ s.chunkCnt = 0#4 ∧ s.progress = 0#32 ∧ TxLength s
  | .txWaitReady => s.idx = 0#5 ∧ s.chunkCnt = 0#4 ∧ s.progress = 0#32 ∧ TxLength s
  | .txPayload =>
    s.idx = 0#5 ∧ s.chunkCnt.toNat = s.progress.toNat % 8 ∧ s.progress.toNat < s.len34.toNat ∧ TxLength s
  | .txGap =>
    s.idx = 0#5 ∧ s.chunkCnt = 0#4 ∧ 0 < s.progress.toNat ∧ s.progress.toNat ≤ s.len34.toNat ∧
      (s.progress.toNat % 8 = 0 ∨ s.progress.toNat = s.len34.toNat) ∧ TxLength s
  | .txDrain => s.idx = 0#5 ∧ s.chunkCnt = 0#4 ∧ s.progress.toNat = s.len34.toNat ∧ TxLength s
  | .txCrc => s.idx.toNat ≤ 1 ∧ s.chunkCnt = 0#4 ∧ s.progress.toNat = s.len34.toNat ∧ TxLength s
  | .txWaitAck => s.idx = 0#5 ∧ s.chunkCnt = 0#4 ∧ s.progress.toNat = s.len34.toNat ∧ TxLength s
  | .rxWaitSync => s.idx = 0#5 ∧ s.chunkCnt = 0#4 ∧ s.progress = 0#32 ∧ s.len34 = 0#34
  | .rxHdr => s.idx.toNat ≤ 5 ∧ s.chunkCnt = 0#4 ∧ s.progress = 0#32 ∧ s.len34 = 0#34
  | .rxReady => s.idx = 0#5 ∧ s.chunkCnt = 0#4 ∧ s.progress = 0#32 ∧ RxLength s
  | .rxPayload => s.idx = 0#5 ∧ s.chunkCnt = 0#4 ∧ s.progress.toNat < s.len34.toNat ∧ RxLength s
  | .rxCrc => s.idx.toNat ≤ 1 ∧ s.chunkCnt = 0#4 ∧ s.progress.toNat = s.len34.toNat ∧ RxLength s
  | .rxValidate => s.idx = 0#5 ∧ s.chunkCnt = 0#4 ∧ s.progress.toNat = s.len34.toNat ∧ RxLength s
  | .rxAck => s.idx = 0#5 ∧ s.chunkCnt = 0#4 ∧ s.progress.toNat = s.len34.toNat ∧ RxLength s
  | .tokSend =>
    s.idx.toNat < s.settings.tokenLen.toNat ∧ s.chunkCnt = 0#4 ∧ s.progress.toNat = s.idx.toNat ∧
      s.len34.toNat = s.settings.tokenLen.toNat
  | .tokWait =>
    s.idx = 0#5 ∧ s.chunkCnt = 0#4 ∧ s.progress.toNat = s.len34.toNat ∧
      s.len34.toNat = s.settings.tokenLen.toNat

/-- While a frame is sent or received, ACC is the checksum of the payload bytes moved so far (R206, R209, R269). -/
def ChecksumInv (s : State) : Prop :=
  match s.st with
  | .idle | .tokSend | .tokWait => True
  | .txHdr | .txWaitReady | .txPayload | .txGap | .txDrain | .txCrc | .txWaitAck | .rxWaitSync | .rxHdr | .rxReady
  | .rxPayload | .rxCrc | .rxValidate | .rxAck => s.acc = prefixSum s s.progress.toNat

/-- A state of a sound machine. -/
structure Inv (s : State) : Prop where
  params : s.params.wf
  memory : MemoryInv s
  registers : RegisterInv s
  status : StatusInv s
  position : PositionInv s
  checksum : ChecksumInv s

end Sys2Proof.Machine
end

