-- ==== Sys2Proof/Certificates/Slice0/Obligations.lean ====
section
/-!
DEFINITION. The statements for the provers. Each says in its docstring which rules of spec/ it formalises. A host
access, a command and a byte are instructions, stated of `exec`; the events no row of the opcode table names are
stated of `step`, with the event at the head of the schedule.
-/

open Sys2Proof Sys2Proof.Machine

/-! ### Commands -/

/-- R157: NOP has no effect in any state, busy or not. -/
def Obligations.NopChangesNothing : Prop :=
  ∀ (hi : BitVec 24) (s : State), exec (.nop hi) s = .next s

/-- R144, R145, R220, R221: SEND_DATA in IDLE with the link open, a supported format and a payload that fits enters
TX_HDR; ACC is seeded, LEN34 is the exact product, and nothing else changes but the start's record. -/
def Obligations.SendDataEntersHeader : Prop :=
  ∀ (hi : BitVec 24) (s : State) (w : Nat),
    s.st = .idle → s.link.linkOpen = true → specWidth s.settings.txFmt = some w →
    s.settings.txCount.toNat * w ≤ s.params.pbufBytes →
    exec (.sendData hi) s = .next
      { s with
        st := .txHdr
        idx := 0#5
        chunkCnt := 0#4
        status := startedStatus s.status
        len34 := BitVec.ofNat 34 (s.settings.txCount.toNat * w)
        progress := 0#32
        timer := 0#32
        acc := 0x1234#16 }

/-- R146, R147, R221, R305: the start checks of SEND_DATA, in their order; each abort leaves ACC, PBUF and the RX
registers as they were. -/
def Obligations.SendDataStartAborts : Prop :=
  ∀ (hi : BitVec 24) (s : State), s.st = .idle →
    (s.link.linkOpen = false → exec (.sendData hi) s = .next (failedStart .connection 0#34 s)) ∧
    (s.link.linkOpen = true → specWidth s.settings.txFmt = none →
      exec (.sendData hi) s = .next (failedStart .unsupportedType 0#34 s)) ∧
    (∀ w, s.link.linkOpen = true → specWidth s.settings.txFmt = some w →
      s.params.pbufBytes < s.settings.txCount.toNat * w →
      exec (.sendData hi) s = .next (failedStart .capacity (BitVec.ofNat 34 (s.settings.txCount.toNat * w)) s))

/-- R260, R146: RECV_DATA in IDLE enters RX_WAIT_SYNC with the link open, and aborts with CONNECTION without. -/
def Obligations.RecvDataEntersSync : Prop :=
  ∀ (hi : BitVec 24) (s : State), s.st = .idle →
    (s.link.linkOpen = true → exec (.recvData hi) s = .next
      { s with
        st := .rxWaitSync
        idx := 0#5
        chunkCnt := 0#4
        status := startedStatus s.status
        len34 := 0#34
        progress := 0#32
        timer := 0#32
        acc := 0x1234#16
        crcRx := 0#16 }) ∧
    (s.link.linkOpen = false → exec (.recvData hi) s = .next (failedStart .connection 0#34 s))

/-- R230, R146: SEND_TOKEN in IDLE enters TOK_SEND, or TOK_WAIT for an empty token; ACC and PBUF are not touched;
with the link closed it aborts with CONNECTION. -/
def Obligations.SendTokenEnters : Prop :=
  ∀ (hi : BitVec 24) (s : State), s.st = .idle →
    (s.link.linkOpen = true → exec (.sendToken hi) s = .next
      { s with
        st := if s.settings.tokenLen = 0#5 then .tokWait else .tokSend
        idx := 0#5
        chunkCnt := 0#4
        status := startedStatus s.status
        len34 := BitVec.ofNat 34 s.settings.tokenLen.toNat
        progress := 0#32
        timer := 0#32 }) ∧
    (s.link.linkOpen = false → exec (.sendToken hi) s = .next (failedStart .connection 0#34 s))

/-- R204: CRC_INIT seeds ACC in IDLE, whatever the link; while busy it is rejected and ACC is unchanged. -/
def Obligations.CrcInitSeeds : Prop :=
  ∀ (hi : BitVec 24) (s : State),
    (s.st = .idle → exec (.crcInit hi) s = .next { s with acc := 0x1234#16 }) ∧
    (s.st ≠ .idle → exec (.crcInit hi) s = .next { s with status := { s.status with cmdRej := true } })

/-- R144, R345: a transfer command while busy sets CMD_REJ and changes nothing else. -/
def Obligations.BusyCommandsRejected : Prop :=
  ∀ (hi : BitVec 24) (s : State), s.st ≠ .idle →
    ∀ i ∈ [Instr.sendData hi, Instr.recvData hi, Instr.sendToken hi, Instr.crcInit hi],
      exec i s = .next { s with status := { s.status with cmdRej := true } }

/-- R111: every reserved opcode sets CMD_REJ and changes nothing else, in every state. -/
def Obligations.ReservedCommandsRejected : Prop :=
  ∀ (hi : BitVec 24) (x1 : BitVec 1) (x3 : BitVec 3) (x4 : BitVec 4) (x5 : BitVec 5) (x6 : BitVec 6) (x7 : BitVec 7)
    (s : State),
    ∀ i ∈ [Instr.reserved05 hi, Instr.reserved06 x1 hi, Instr.reserved08 x3 hi, Instr.reserved10 x4 hi,
      Instr.reserved20 x5 hi, Instr.reserved40 x6 hi, Instr.reserved80 x7 hi],
      exec i s = .next { s with status := { s.status with cmdRej := true } }

/-! ### CTRL and the checksum feed -/

/-- R155, R156, R40: CANCEL aborts the transfer that is running, after the CLEAR of the same write, which while busy
clears the sticky bits alone; in IDLE the CANCEL has no effect. CLEAR clears the sticky bits, and in IDLE the whole
record; neither touches another register. -/
def Obligations.CancelAndClear : Prop :=
  ∀ (clr : Bool) (hi : BitVec 30) (s : State) (unstuck cleared : Status),
    unstuck = { s.status with cmdRej := false, hostConflict := false, elemErr := false } →
    cleared = { done := false, error := false, cmdRej := false, hostConflict := false, elemErr := false,
                crcMatch := false, errCode := .none, errWait := .none } →
    (s.st ≠ .idle → exec (.cancel clr hi) s = .next
      (aborted .cancelled .none { s with status := if clr then unstuck else s.status })) ∧
    (s.st = .idle → exec (.cancel clr hi) s = .next { s with status := if clr then cleared else s.status }) ∧
    (s.st ≠ .idle → exec (.clear hi) s = .next { s with status := unstuck }) ∧
    (s.st = .idle → exec (.clear hi) s = .next { s with status := cleared })

/-- R205: CRC_FEED adds v[7:0] to ACC mod 65536 in IDLE; while busy it is dropped with HOST_CONFLICT; a read of the
register gives 0. -/
def Obligations.CrcFeedAdds : Prop :=
  ∀ (v : Word) (s : State),
    (s.st = .idle → exec (.crcFeed v) s = .next { s with acc := BitVec.ofNat 16 (s.acc.toNat + v.toNat % 256) }) ∧
    (s.st ≠ .idle → exec (.crcFeed v) s = .next { s with status := { s.status with hostConflict := true } }) ∧
    (s.params.wf → exec (.regRead 0x038) s = .next { s with readData := 0#32 })

/-! ### Elements and the window -/

/-- R178, R179, R180: an element in range reads as its little-endian number, two's complement for the signed codes;
the read changes nothing else, busy or not. -/
def Obligations.ElemReadDecodes : Prop :=
  ∀ (s : State) (w : Nat),
    specWidth s.elemFmt = some w → s.elemIdx.toNat * w + w ≤ s.params.pbufBytes →
    ∃ v : Word, exec .elemRead s = .next { s with readData := v } ∧
      (s.elemFmt.toNat % 2 = 0 → v.toNat = pbufNumber s (s.elemIdx.toNat * w) w) ∧
      (s.elemFmt.toNat % 2 = 1 → v.toInt =
        if pbufNumber s (s.elemIdx.toNat * w) w < 2 ^ (8 * w - 1) then
          (pbufNumber s (s.elemIdx.toNat * w) w : Int)
        else (pbufNumber s (s.elemIdx.toNat * w) w : Int) - 2 ^ (8 * w))

/-- R179, R180, R181: an element access with an invalid format or out of range sets ELEM_ERR; the read returns 0, and
the write is dropped. A write while busy is dropped with HOST_CONFLICT, whatever the element. -/
def Obligations.InvalidElementAccess : Prop :=
  ∀ (v : Word) (s : State),
    ((∀ w, specWidth s.elemFmt = some w → s.params.pbufBytes < s.elemIdx.toNat * w + w) →
      exec .elemRead s = .next { s with readData := 0#32, status := { s.status with elemErr := true } } ∧
      (s.st = .idle → exec (.elemWrite v) s = .next { s with status := { s.status with elemErr := true } })) ∧
    (s.st ≠ .idle → exec (.elemWrite v) s = .next { s with status := { s.status with hostConflict := true } })

/-- R74, R179, R181: an element write in IDLE stores the low bytes of v, truncated, at the element's offset, the same
offset the read uses; every other byte of PBUF and every register keeps its value. -/
def Obligations.ElemWriteStores : Prop :=
  ∀ (v : Word) (s : State) (w : Nat),
    s.st = .idle → specWidth s.elemFmt = some w → s.elemIdx.toNat * w + w ≤ s.params.pbufBytes →
    ∃ m : Memory, exec (.elemWrite v) s = .next { s with pbuf := m } ∧
      ∀ a, pbufByte { s with pbuf := m } a =
        if s.elemIdx.toNat * w ≤ a ∧ a < s.elemIdx.toNat * w + w then
          BitVec.ofNat 8 (v.toNat / 256 ^ (a - s.elemIdx.toNat * w))
        else pbufByte s a

/-- R72, R153: a window word reads as its four bytes, little-endian, busy or not. A window write in IDLE stores the
word's four bytes, little-endian, in one step, and no other byte changes; while busy it is dropped with
HOST_CONFLICT. -/
def Obligations.WindowWords : Prop :=
  ∀ (k : Nat) (v : Word) (s : State), 4 * k + 4 ≤ s.params.pbufBytes →
    (∃ x : Word, exec (.winRead k) s = .next { s with readData := x } ∧ x.toNat = pbufNumber s (4 * k) 4) ∧
    (s.st = .idle → ∃ m : Memory, exec (.winWrite k v) s = .next { s with pbuf := m } ∧
      ∀ a, pbufByte { s with pbuf := m } a =
        if 4 * k ≤ a ∧ a < 4 * k + 4 then BitVec.ofNat 8 (v.toNat / 256 ^ (a - 4 * k)) else pbufByte s a) ∧
    (s.st ≠ .idle → exec (.winWrite k v) s = .next { s with status := { s.status with hostConflict := true } })

/-- R108, R178, R182: an element written in IDLE, with a value in its format's range, reads back as that value. -/
def Obligations.ElementRoundTrip : Prop :=
  ∀ (v : Word) (s : State) (w : Nat),
    s.st = .idle → specWidth s.elemFmt = some w → s.elemIdx.toNat * w + w ≤ s.params.pbufBytes →
    (s.elemFmt.toNat % 2 = 0 → v.toNat < 2 ^ (8 * w)) →
    (s.elemFmt.toNat % 2 = 1 → -(2 ^ (8 * w - 1) : Int) ≤ v.toInt ∧ v.toInt < (2 ^ (8 * w - 1) : Int)) →
    ∃ t, exec (.elemWrite v) s = .next t ∧ exec .elemRead t = .next { t with readData := v }

/-! ### Registers -/

/-- R38 to R58, R158: what each register reads as, with no other effect: the fields' numbers at their places, STATUS
among them with BUSY from ST, LINK from the input, and the code numbers of R31, R300 and R301. -/
def Obligations.RegistersRead : Prop :=
  ∀ s : State, s.params.wf →
    ∀ r ∈ ([(0x000, 0), (0x004, 0),
      (0x008, (decide (s.st ≠ .idle)).toNat + 2 * s.status.done.toNat + 4 * s.status.error.toNat +
        8 * s.status.cmdRej.toNat + 16 * s.status.hostConflict.toNat + 32 * s.status.elemErr.toNat +
        64 * s.status.crcMatch.toNat + 128 * s.link.linkOpen.toNat + 256 * errorNumber s.status.errCode +
        4096 * waitNumber s.status.errWait + 65536 * stateNumber s.st),
      (0x00C, s.settings.txFmt.toNat), (0x010, s.settings.txTag.toNat),
      (0x014, s.settings.txCount.toNat), (0x018, s.rxRaw.toNat + 256 * s.rxCode.toNat), (0x01C, s.rxTag.toNat),
      (0x020, s.rxCount.toNat), (0x024, s.len34.toNat % 2 ^ 32), (0x028, s.len34.toNat / 2 ^ 32),
      (0x02C, s.progress.toNat), (0x030, s.timer.toNat), (0x034, s.acc.toNat), (0x038, 0), (0x03C, s.crcRx.toNat),
      (0x040, s.settings.readyDl.toNat), (0x044, s.settings.ackDl.toNat), (0x048, s.settings.syncDl.toNat),
      (0x04C, s.settings.byteDl.toNat), (0x050, s.settings.gap.toNat),
      (0x054, s.settings.strayFail.toNat + 2 * s.settings.mismatchAck.toNat), (0x058, s.settings.tokenLen.toNat),
      (0x05C, s.settings.token0.toNat), (0x060, s.settings.token1.toNat), (0x064, s.settings.token2.toNat),
      (0x068, s.settings.token3.toNat), (0x06C, s.elemFmt.toNat), (0x070, s.elemIdx.toNat),
      (0x078, s.params.pbufBytes)] : List (Nat × Nat)),
      exec (.regRead r.1) s = .next { s with readData := BitVec.ofNat 32 r.2 }

/-- R39, R78: a reserved offset, a misaligned one and one above the window, however large, read 0 and ignore writes,
busy or not. (An offset that HOST_ADDR_W bits do not hold is read as one above the window: assumption log 10.) -/
def Obligations.ReservedOffsets : Prop :=
  ∀ (off : Nat) (v : Word) (s : State),
    (off % 4 ≠ 0 ∨ (0x07C ≤ off ∧ off < 0x1000) ∨ 0x1000 + s.params.pbufBytes ≤ off ∨
      2 ^ s.params.hostAddrW ≤ off) →
    exec (.regRead off) s = .next { s with readData := 0#32 } ∧ exec (.regWrite off v) s = .next s

/-- R44 to R46, R53 to R58, R158: a write of v in IDLE to each locked setting stores the defined bits, TOKEN_LEN as
min(v[4:0], 16), and nothing else; ELEM_FMT and ELEM_IDX do so in every state, busy or not (R346). -/
def Obligations.PlainWritesStore : Prop :=
  ∀ (v : Word) (s : State), s.params.wf →
    (s.st = .idle →
      ∀ r ∈ ([(0x00C, { s.settings with txFmt := BitVec.ofNat 8 v.toNat }),
        (0x010, { s.settings with txTag := BitVec.ofNat 8 v.toNat }), (0x014, { s.settings with txCount := v }),
        (0x040, { s.settings with readyDl := v }), (0x044, { s.settings with ackDl := v }),
        (0x048, { s.settings with syncDl := v }), (0x04C, { s.settings with byteDl := v }),
        (0x050, { s.settings with gap := v }),
        (0x054, { s.settings with strayFail := v.getLsbD 0, mismatchAck := v.getLsbD 1 }),
        (0x058, { s.settings with tokenLen := BitVec.ofNat 5 (min (v.toNat % 32) 16) }),
        (0x05C, { s.settings with token0 := v }), (0x060, { s.settings with token1 := v }),
        (0x064, { s.settings with token2 := v }), (0x068, { s.settings with token3 := v })] :
        List (Nat × Settings)),
        exec (.regWrite r.1 v) s = .next { s with settings := r.2 }) ∧
    exec (.regWrite 0x06C v) s = .next { s with elemFmt := BitVec.ofNat 8 v.toNat } ∧
    exec (.regWrite 0x070 v) s = .next { s with elemIdx := v }

/-- R39, R40, R153: while busy a write to a locked setting sets HOST_CONFLICT and changes nothing else; a write to a
read-only register, and a CTRL write with no command bit, changes nothing in any state. -/
def Obligations.WritesDroppedOrIgnored : Prop :=
  ∀ (v : Word) (s : State), s.params.wf →
    (s.st ≠ .idle →
      ∀ off ∈ ([0x00C, 0x010, 0x014, 0x040, 0x044, 0x048, 0x04C, 0x050, 0x054, 0x058,
        0x05C, 0x060, 0x064, 0x068] : List Nat),
        exec (.regWrite off v) s = .next { s with status := { s.status with hostConflict := true } }) ∧
    (∀ off ∈ ([0x008, 0x018, 0x01C, 0x020, 0x024, 0x028, 0x02C, 0x030, 0x034, 0x03C,
      0x078] : List Nat), exec (.regWrite off v) s = .next s) ∧
    (v.getLsbD 0 = false → v.getLsbD 1 = false → exec (.regWrite 0x000 v) s = .next s)

/-! ### Bytes of the link -/

/-- R172, R222, R261: in TX_HDR at IDX 0 the transport takes 0x3C and IDX moves on; a received 0x3E in RX_WAIT_SYNC
enters RX_HDR, with IDX and TIMER 0. -/
def Obligations.SyncMarkersPass : Prop :=
  ∀ s : State,
    (s.st = .txHdr → s.idx = 0#5 →
      exec .syncOut s = .next { s with idx := 1#5, link := { s.link with wire := s.link.wire ++ [0x3C#8] } }) ∧
    (s.st = .rxWaitSync → exec .syncIn s = .next { s with st := .rxHdr, idx := 0#5, timer := 0#32 })

/-- R223, R233, R263: in RX_READY the transport takes 0x61, and the payload follows, or the checksum where it is
empty. A received 0x61 in TX_WAIT_READY opens the payload, or the drain where it is empty; in TOK_WAIT it completes
the token send. -/
def Obligations.ReadinessBytesPass : Prop :=
  ∀ s : State,
    (s.st = .rxReady → exec .readyOut s = .next
      { s with
        st := if s.len34 = 0#34 then .rxCrc else .rxPayload
        idx := 0#5
        timer := 0#32
        link := { s.link with wire := s.link.wire ++ [0x61#8] } }) ∧
    (s.st = .txWaitReady → s.len34 = 0#34 → exec .readyIn s = .next { s with st := .txDrain, timer := 0#32 }) ∧
    (s.st = .txWaitReady → s.len34 ≠ 0#34 →
      exec .readyIn s = .next { s with st := .txPayload, chunkCnt := 0#4, timer := 0#32 }) ∧
    (s.st = .tokWait → exec .readyIn s = .next (completed s))

/-- R152, R229, R267: in RX_ACK the transport takes 0x5E and the receive completes; a received 0x5E in TX_WAIT_ACK
completes the send. -/
def Obligations.AcknowledgmentsComplete : Prop :=
  ∀ s : State,
    (s.st = .rxAck →
      exec .ackOut s = .next (completed { s with link := { s.link with wire := s.link.wire ++ [0x5E#8] } })) ∧
    (s.st = .txWaitAck → exec .ackIn s = .next (completed s))

/-- R104, R172, R222, R262: the six format bytes at the format position. Outbound, the transport takes the code
TX_FMT names, flags 00; inbound, the byte is HDR[0], with any flags. -/
def Obligations.FormatBytesPass : Prop :=
  ∀ r ∈ ([(Instr.fmtUint8, 0x00#8), (Instr.fmtInt8, 0x01#8), (Instr.fmtUint16, 0x02#8), (Instr.fmtInt16, 0x03#8),
    (Instr.fmtUint32, 0x04#8), (Instr.fmtInt32, 0x05#8)] : List ((BitVec 2 → Instr) × Byte)),
    ∀ s : State,
      (s.st = .txHdr → s.idx = 1#5 → s.settings.txFmt = r.2 →
        exec (r.1 0#2) s = .next { s with idx := 2#5, link := { s.link with wire := s.link.wire ++ [r.2] } }) ∧
      (∀ flags : BitVec 2, s.st = .rxHdr → s.idx = 0#5 →
        exec (r.1 flags) s = .next
          { s with hdr := s.hdr.set 0 (BitVec.ofNat 8 (16 * flags.toNat + r.2.toNat)), idx := 1#5, timer := 0#32 })

/-- R223, R229, R233, R55, R261: a byte other than the awaited one in a handshake wait is discarded, with no other
change, or aborts with PROTOCOL under CFG.STRAY_FAIL; noise in RX_WAIT_SYNC is always discarded. -/
def Obligations.StrayBytesJudged : Prop :=
  ∀ (s : State) (b : Byte) (more : List Byte) (rest : List Event),
    s.script = .rx :: rest → s.link.held = b :: more →
    (∀ wait, (s.st = .txWaitReady ∧ b ≠ 0x61#8 ∧ wait = .ready) ∨ (s.st = .txWaitAck ∧ b ≠ 0x5E#8 ∧ wait = .ack) ∨
        (s.st = .tokWait ∧ b ≠ 0x61#8 ∧ wait = .token) →
      step s = .next
        (if s.settings.strayFail then aborted .protocol wait (handedOver more rest s) else handedOver more rest s)) ∧
    (s.st = .rxWaitSync → b ≠ 0x3E#8 → step s = .next (handedOver more rest s))

/-- R34, R35: where rx_ready is 0 an offered byte stays in the transport, at the head of what it holds, and where
tx_valid is 0 a willing transport takes nothing. That the schedule moves on is the model's choice (assumption log
3). -/
def Obligations.BytesPassOnlyWhenReady : Prop :=
  ∀ (s : State) (rest : List Event),
    (s.script = .rx :: rest → s.st ∈ [St.idle, .txHdr, .txPayload, .txGap, .txDrain, .txCrc, .rxReady, .rxValidate,
      .rxAck, .tokSend] → step s = .next (passed rest s)) ∧
    (s.script = .tx :: rest → s.st ∈ [St.idle, .txWaitReady, .txGap, .txDrain, .txWaitAck, .rxWaitSync, .rxHdr,
      .rxPayload, .rxCrc, .rxValidate, .tokWait] → step s = .next (passed rest s))

/-! ### The sender's other events -/

/-- R101, R172, R222: the seven header bytes go out in order; after the last TX_WAIT_READY is entered. -/
def Obligations.OutboundHeaderBytes : Prop :=
  ∀ (s : State) (rest : List Event) (b : Byte),
    s.script = .tx :: rest → s.st = .txHdr →
    ([0x3C#8, s.settings.txFmt, s.settings.txTag, BitVec.ofNat 8 s.settings.txCount.toNat,
      BitVec.ofNat 8 (s.settings.txCount.toNat / 256), BitVec.ofNat 8 (s.settings.txCount.toNat / 65536),
      BitVec.ofNat 8 (s.settings.txCount.toNat / 16777216)] : List Byte)[s.idx.toNat]? = some b →
    step s = .next
      (if s.idx = 6#5 then { sent b rest s with st := .txWaitReady, idx := 0#5, timer := 0#32 }
        else { sent b rest s with idx := s.idx + 1#5 })

/-- R224: a payload byte PBUF[PROGRESS] goes out and is added to ACC; at the end of a chunk the pause follows, or with
GAP = 0 the drain or the next chunk. -/
def Obligations.PayloadByteSent : Prop :=
  ∀ (s : State) (rest : List Event),
    s.script = .tx :: rest → s.st = .txPayload → s.chunkCnt.toNat < 8 → s.progress.toNat < s.len34.toNat →
    s.progress.toNat + 1 < 2 ^ 32 →
    ∃ b, b = pbufByte s s.progress.toNat ∧
      step s = .next
        (let t : State :=
          { sent b rest s with
            acc := BitVec.ofNat 16 (s.acc.toNat + b.toNat), progress := BitVec.ofNat 32 (s.progress.toNat + 1) }
        if s.chunkCnt.toNat + 1 = 8 ∨ s.progress.toNat + 1 = s.len34.toNat then
          if s.settings.gap ≠ 0#32 then { t with chunkCnt := 0#4, st := .txGap, timer := 0#32 }
          else if s.progress.toNat + 1 = s.len34.toNat then { t with chunkCnt := 0#4, st := .txDrain, timer := 0#32 }
          else { t with chunkCnt := 0#4 }
        else { t with chunkCnt := BitVec.ofNat 4 (s.chunkCnt.toNat + 1) })

/-- R227, R228: the drain leads to TX_CRC, where the checksum's low byte and then its high byte go out; after the
second TX_WAIT_ACK is entered. That a drain scheduled in any other state changes nothing but the schedule is the
model's choice for an event that is not enabled (assumption log 3). -/
def Obligations.ChecksumBytesSent : Prop :=
  ∀ (s : State) (rest : List Event),
    (s.script = .drain :: rest → s.st = .txDrain →
      step s = .next { passed rest s with st := .txCrc, idx := 0#5, timer := 0#32 }) ∧
    (s.script = .drain :: rest → s.st ≠ .txDrain → step s = .next (passed rest s)) ∧
    (s.script = .tx :: rest → s.st = .txCrc → s.idx = 0#5 →
      step s = .next { sent (BitVec.ofNat 8 s.acc.toNat) rest s with idx := 1#5 }) ∧
    (s.script = .tx :: rest → s.st = .txCrc → s.idx = 1#5 →
      step s = .next
        { sent (BitVec.ofNat 8 (s.acc.toNat / 256)) rest s with st := .txWaitAck, idx := 0#5, timer := 0#32 })

/-- R56, R232: token byte IDX goes out, byte 4k+j being byte j of TOKENk; after the last TOK_WAIT is entered. -/
def Obligations.TokenBytesSent : Prop :=
  ∀ (s : State) (rest : List Event) (tok : Word),
    s.script = .tx :: rest → s.st = .tokSend → s.idx.toNat < s.settings.tokenLen.toNat →
    ([s.settings.token0, s.settings.token1, s.settings.token2, s.settings.token3] : List Word)[s.idx.toNat / 4]? =
      some tok →
    step s = .next
      (let t : State :=
        { sent (BitVec.ofNat 8 (tok.toNat / 256 ^ (s.idx.toNat % 4))) rest s with progress := s.progress + 1#32 }
      if s.idx.toNat + 1 = s.settings.tokenLen.toNat then { t with st := .tokWait, idx := 0#5, timer := 0#32 }
      else { t with idx := s.idx + 1#5 })

/-- R70, R224, R225, R226: from TX_PAYLOAD, with a willing transport and time passing, the bytes of PBUF from PROGRESS
to the length go out in increasing offset order, whatever GAP is, and TX_DRAIN follows with ACC their checksum. -/
def Obligations.PayloadReachesWire : Prop :=
  ∀ s : State, s.params.wf → PositionInv s → s.st = .txPayload →
    ∃ n, (sendOn^[n] s).st = .txDrain ∧
      (sendOn^[n] s).link.wire =
        s.link.wire ++ pbufBytesFrom s s.progress.toNat (s.len34.toNat - s.progress.toNat) ∧
      (sendOn^[n] s).acc = sumBytes s.acc (pbufBytesFrom s s.progress.toNat (s.len34.toNat - s.progress.toNat)) ∧
      (sendOn^[n] s).pbuf = s.pbuf

/-! ### The receiver's other events -/

/-- R262, R174, R175, R177, R306: the sixth header byte. The RX registers record the header, valid or not; an invalid
code aborts with PROTOCOL, a payload that does not fit with CAPACITY, and else RX_READY is entered. That TIMER is 0
after either abort is read from R151 and R154 by inference (assumption log 16). -/
def Obligations.HeaderJudged : Prop :=
  ∀ (s : State) (b : Byte) (more : List Byte) (rest : List Event) (t : State),
    s.script = .rx :: rest → s.link.held = b :: more → s.st = .rxHdr → s.idx = 5#5 →
    t =
      { handedOver more rest s with
        hdr := s.hdr.set 5 b
        idx := 6#5
        timer := 0#32
        rxRaw := s.hdr[0]
        rxCode := s.hdr[0] &&& 0xCF#8
        rxTag := s.hdr[1]
        rxCount := BitVec.ofNat 32
          (s.hdr[2].toNat + 256 * s.hdr[3].toNat + 65536 * s.hdr[4].toNat + 16777216 * b.toNat) } →
    (specWidth t.rxCode = none → step s = .next (aborted .protocol .header t)) ∧
    (∀ w, specWidth t.rxCode = some w → s.params.pbufBytes < t.rxCount.toNat * w →
      step s = .next (aborted .capacity .header { t with len34 := BitVec.ofNat 34 (t.rxCount.toNat * w) })) ∧
    (∀ w, specWidth t.rxCode = some w → t.rxCount.toNat * w ≤ s.params.pbufBytes →
      step s = .next
        { t with len34 := BitVec.ofNat 34 (t.rxCount.toNat * w), st := .rxReady, idx := 0#5, timer := 0#32 })

/-- R262, R82: each of the first five header bytes is stored as it comes, a marker among them too; the per-byte
deadline restarts. -/
def Obligations.HeaderBytesCollected : Prop :=
  ∀ (s : State) (b : Byte) (more : List Byte) (rest : List Event) (i : Fin 5),
    s.script = .rx :: rest → s.link.held = b :: more → s.st = .rxHdr → s.idx = BitVec.ofNat 5 i →
    step s = .next
      { handedOver more rest s with
        hdr := s.hdr.set i b (by omega), idx := BitVec.ofNat 5 (i + 1), timer := 0#32 }

/-- R264: a run of payload bytes that fills the frame is stored in increasing offset order from PROGRESS, added to
ACC, and leads to RX_CRC with TIMER 0; every other byte of PBUF and every other register keeps its value. -/
def Obligations.PayloadStored : Prop :=
  ∀ (bs : List Byte) (s : State),
    s.params.wf → s.st = .rxPayload → bs ≠ [] → s.progress.toNat + bs.length = s.len34.toNat →
    s.len34.toNat ≤ s.params.pbufBytes →
    ∃ m : Memory,
      bs.foldl (fun u b => offerByte b u) s =
        { s with
          st := .rxCrc
          idx := 0#5
          progress := BitVec.ofNat 32 s.len34.toNat
          timer := 0#32
          acc := sumBytes s.acc bs
          pbuf := m } ∧
      (∀ j (h : j < bs.length), pbufByte { s with pbuf := m } (s.progress.toNat + j) = bs[j]) ∧
      (∀ a, a < s.progress.toNat ∨ s.len34.toNat ≤ a → pbufByte { s with pbuf := m } a = pbufByte s a)

/-- R265, R109: the checksum's bytes come low byte first; after the second RX_VALIDATE is entered. -/
def Obligations.ChecksumBytesReceived : Prop :=
  ∀ (s : State) (b : Byte) (more : List Byte) (rest : List Event),
    s.script = .rx :: rest → s.link.held = b :: more → s.st = .rxCrc →
    (s.idx = 0#5 →
      step s = .next
        { handedOver more rest s with
          crcRx := BitVec.ofNat 16 (256 * (s.crcRx.toNat / 256) + b.toNat), idx := 1#5, timer := 0#32 }) ∧
    (s.idx = 1#5 →
      step s = .next
        { handedOver more rest s with
          crcRx := BitVec.ofNat 16 (256 * b.toNat + s.crcRx.toNat % 256)
          st := .rxValidate
          idx := 0#5
          timer := 0#32 })

/-- R266: the internal step. A match is recorded and acknowledged; a mismatch is recorded, and is acknowledged under
CFG.MISMATCH_ACK, else it aborts with CHECKSUM_MISMATCH. That an internal event scheduled in any other state changes
nothing but the schedule is the model's choice for an event that is not enabled (assumption log 3). -/
def Obligations.ValidateJudges : Prop :=
  ∀ (s : State) (rest : List Event), s.script = .internal :: rest →
    (s.st = .rxValidate → (s.crcRx = s.acc ∨ s.settings.mismatchAck = true) →
      step s = .next
        { passed rest s with
          st := .rxAck, timer := 0#32, status := { s.status with crcMatch := decide (s.crcRx = s.acc) } }) ∧
    (s.st = .rxValidate → s.crcRx ≠ s.acc → s.settings.mismatchAck = false →
      step s = .next
        (aborted .checksumMismatch .none { passed rest s with status := { s.status with crcMatch := false } })) ∧
    (s.st ≠ .rxValidate → step s = .next (passed rest s))

/-! ### Time and reset -/

/-- R151: a wait with deadline D ≠ 0 entered with TIMER 0 goes on for D - 1 ticks and aborts at the D-th, TIMER being
D; with D = 0 no number of ticks ends it. -/
def Obligations.DeadlineExpiresExactly : Prop :=
  ∀ (s : State) (dl : Word) (code : ErrCode) (wait : ErrWait),
    waitBound s = some (dl, code, wait) → s.timer = 0#32 →
    (∀ n, n < dl.toNat → tickStep^[n] s = { s with timer := BitVec.ofNat 32 n }) ∧
    (dl ≠ 0#32 → tickStep^[dl.toNat] s = aborted code wait { s with timer := dl }) ∧
    (dl = 0#32 → ∀ n, tickStep^[n] s = { s with timer := BitVec.ofNat 32 (min n (2 ^ 32 - 1)) })

/-- R225: a pause of GAP ≠ 0 entered with TIMER 0 is exactly GAP ticks. -/
def Obligations.GapLastsExactly : Prop :=
  ∀ s : State, s.st = .txGap → s.timer = 0#32 → s.settings.gap ≠ 0#32 →
    (∀ n, n < s.settings.gap.toNat → tickStep^[n] s = { s with timer := BitVec.ofNat 32 n }) ∧
    tickStep^[s.settings.gap.toNat] s =
      { s with st := if s.progress.toNat = s.len34.toNat then .txDrain else .txPayload, timer := 0#32 }

/-- R150, R151: a Tick event in IDLE has no effect; elsewhere TIMER counts it, saturating, and in a state that no
deadline and no gap reads that is all. A scheduled tick is `tickStep`. -/
def Obligations.TickCounts : Prop :=
  ∀ (s : State) (rest : List Event), s.script = .tick :: rest →
    step s = .next (tickStep (passed rest s)) ∧
    (s.st = .idle → step s = .next (passed rest s)) ∧
    (s.st ≠ .idle → s.st ≠ .txGap → waitBound s = none →
      step s = .next { passed rest s with timer := BitVec.ofNat 32 (min (s.timer.toNat + 1) (2 ^ 32 - 1)) })

/-- R59, R71, R340: Reset, in every state, sets every register and internal element to its R59 value, leaves PBUF and
the transport, and records no abort. Power-on does the same, with every byte of PBUF drawn anew: a free value
(assumption log 1; that power-on is an event of its own is log 13's reading). -/
def Obligations.ResetRestores : Prop :=
  ∀ (s : State) (rest : List Event) (t : State),
    t =
      { params := s.params
        st := .idle
        idx := 0#5
        chunkCnt := 0#4
        hdr := #v[0#8, 0#8, 0#8, 0#8, 0#8, 0#8]
        status :=
          { done := false, error := false, cmdRej := false, hostConflict := false, elemErr := false
            crcMatch := false, errCode := .none, errWait := .none }
        settings :=
          { txFmt := 0#8, txTag := 0#8, txCount := 0#32, readyDl := s.params.dlReset, ackDl := s.params.dlReset
            syncDl := s.params.dlReset, byteDl := s.params.dlReset, gap := s.params.chunkGapReset
            strayFail := false, mismatchAck := false, tokenLen := 0#5
            token0 := 0#32, token1 := 0#32, token2 := 0#32, token3 := 0#32 }
        rxRaw := 0#8
        rxCode := 0#8
        rxTag := 0#8
        rxCount := 0#32
        len34 := 0#34
        progress := 0#32
        timer := 0#32
        acc := 0x1234#16
        crcRx := 0#16
        elemFmt := 0#8
        elemIdx := 0#32
        pbuf := s.pbuf
        draws := s.draws
        link := s.link
        readData := s.readData
        script := rest } →
    (s.script = .reset :: rest → step s = .next t) ∧
    (s.script = .powerOn :: rest →
      step s = .next { t with pbuf := [], draws := s.draws + 1 } ∧
      ∀ a, pbufByte { t with pbuf := [], draws := s.draws + 1 } a = Config.powerOnByte (s.draws + 1) a)

/-! ### Codec and checksum laws -/

/-- R104, R175, R176: of the 256 format bytes exactly those with bits [7:6] = 0 and bits [3:0] at most 5 are valid. -/
def Obligations.FormatByteValidity : Prop :=
  (∀ b : Byte, (formatOf (b &&& 0xCF#8)).isSome = true ↔ b.toNat < 64 ∧ b.toNat % 16 ≤ 5) ∧
  ((List.range 256).filter fun n => (formatOf (BitVec.ofNat 8 n &&& 0xCF#8)).isSome).length = 24

/-- R172, R174, R182: the six outbound header bytes after the sync byte decode to the format, tag and count they
were made from. -/
def Obligations.HeaderRoundTrip : Prop :=
  ∀ (fmt tag : Byte) (count : Word) (w : Nat) (h : Vector Byte 6),
    specWidth fmt = some w → h.toList = (outHdr fmt tag count).tail →
    inHdr h = { raw := fmt, code := fmt, tag := tag, count := count }

/-- R206: after init and updates ACC is the seed plus the bytes, mod 65536. -/
def Obligations.ChecksumClosedForm : Prop :=
  ∀ bs : List Byte, (sumBytes Config.seed bs).toNat = (0x1234 + (bs.map BitVec.toNat).sum) % 65536

/-- R208: reordering bytes never changes the checksum, a change of one byte always does, and a change of two need not
(the rule's own examples). -/
def Obligations.ChecksumStrength : Prop :=
  (∀ (acc : Sum16) (bs cs : List Byte), bs.Perm cs → sumBytes acc bs = sumBytes acc cs) ∧
  (∀ (acc : Sum16) (xs ys : List Byte) (b c : Byte), b ≠ c →
    sumBytes acc (xs ++ b :: ys) ≠ sumBytes acc (xs ++ c :: ys)) ∧
  sumBytes Config.seed [0x01#8, 0xFF#8] = 0x1334#16 ∧ sumBytes Config.seed [0x02#8, 0xFE#8] = 0x1334#16

/-! ### Decoding -/

/-- The opcode table and R110, R113: decode reads back what encode writes, for every well-formed instruction with
every operand, under every legal choice of the parameters. The byte layout of a table word is the model's choice
(assumption log 4). -/
def Obligations.DecodeEncode : Prop :=
  ∀ (p : Params) (i : Instr), p.wf → wellFormed p i = true → decode p (encode i) = .instr i

/-- The opcode table and R110, R113: every host write and read is an instruction that encodes to that very access: a
CMD write to its value, any other to its offset and value. No bit of an access is dropped. The byte layout of a table
word is the model's choice (assumption log 4). -/
def Obligations.EncodeDecodedAccess : Prop :=
  ∀ (p : Params) (off : Nat) (v : Word), p.wf →
    encode (decodeHostWrite p off v) =
      (if off = 0x004 then ⟨.cmd, bytesOfWord v⟩ else ⟨.hostWrite, offsetBytes off ++ bytesOfWord v⟩) ∧
    encode (decodeHostRead p off) = ⟨.hostRead, offsetBytes off⟩ ∧
    wellFormed p (decodeHostWrite p off v) = true ∧ wellFormed p (decodeHostRead p off) = true

/-- R38, R72, R113, R140, R144: the instruction a host access decodes to does what the register map says of that
offset: the rows of the opcode table agree with the map and with the order of CMD's checks. -/
def Obligations.AccessMeansRegisterMap : Prop :=
  ∀ (off : Nat) (v : Word) (s : State), s.params.wf →
    exec (decodeHostWrite s.params off v) s = .next (hostWrite off v s) ∧
    exec (decodeHostRead s.params off) s = .next (hostRead off s)

/-- The opcode table: a few words of each kind, with the bits the table gives their rows, and what they are. Which
row a word of `decodeTableWord` is, and the byte layout, are the model's choices (assumption logs 5 and 4); the window's
last word and the first offset above it are those of the default PBUF_BYTES (assumption log 2). -/
def Obligations.TableWordsDecode : Prop :=
  decodeTableWord 8 0x01 = some (.sendData 0#24) ∧ decodeTableWord 8 0x04 = some (.crcInit 0#24) ∧
  decodeTableWord 8 0x07 = some (.reserved06 1#1 0#24) ∧ decodeTableWord 8 0xFF = some (.reserved80 0x7F#7 0#24) ∧
  decodeTableWord 32 0x038 = some (.crcFeed 0#32) ∧ decodeTableWord 32 0x074 = some (.elemWrite 0#32) ∧
  decode Params.default ⟨.hostRead, [0xFC#8, 0x1F#8, 0x00#8, 0x00#8]⟩ = .instr (.winRead 1023) ∧
  decode Params.default ⟨.hostRead, [0x00#8, 0x20#8, 0x00#8, 0x00#8]⟩ = .instr (.regRead 0x2000) ∧
  decode Params.default ⟨.wireIn, [0x5E#8]⟩ = .instr .ackIn ∧
  decode Params.default ⟨.fmtByte, [0x34#8]⟩ = .instr (.fmtUint32 3#2) ∧
  decode Params.default ⟨.fmtByte, [0x45#8]⟩ = .rejected .invalidFormat

/-! ### The step -/

/-- R140: where the next event is a word of the opcode table, the step runs that instruction, with the event passed
and a byte that the transport offers out of its hands. The schedule is the model's own (assumption log 3), and so is
the byte layout of a table word (assumption log 4). -/
def Obligations.StepRunsInstruction : Prop :=
  ∀ (s : State) (rest : List Event) (i : Instr),
    (∀ off v, s.script = .hostWrite .w32 off v :: rest → decode s.params (writeWord off v) = .instr i →
      step s = exec i (passed rest s)) ∧
    (∀ off, s.script = .hostRead .w32 off :: rest → decode s.params (readWord off) = .instr i →
      step s = exec i (passed rest s)) ∧
    (∀ b more, s.script = .rx :: rest → s.link.held = b :: more → decode s.params (inWord s b) = .instr i →
      step s = exec i (handedOver more rest s)) ∧
    (∀ b, s.script = .tx :: rest → txData s = some b → decode s.params (outWord s b) = .instr i →
      step s = exec i (passed rest s))

/-- R77, R142: a host access that is not 32 bits wide is refused by that name; every other step has a next state, and
none faults. -/
def Obligations.StepsAreTotal : Prop :=
  ∀ s : State,
    (∀ w off v rest, w ≠ .w32 → (s.script = .hostWrite w off v :: rest ∨ s.script = .hostRead w off :: rest) →
      step s = .refused (.hostAccessWidth w)) ∧
    ((∀ w off v rest, w ≠ .w32 → s.script ≠ .hostWrite w off v :: rest ∧ s.script ≠ .hostRead w off :: rest) →
      ∃ t, step s = .next t)

/-- R86, R153, R346: while a transfer runs, no event but Reset and power-on changes a locked register. -/
def Obligations.SettingsLockedWhileBusy : Prop :=
  ∀ (s t : State), s.st ≠ .idle → (∀ e rest, s.script = e :: rest → e ≠ .reset ∧ e ≠ .powerOn) →
    step s = .next t → t.settings = s.settings

/-- R70, R83, R153, R264: while a transfer runs, PBUF changes at no event but power-on and a byte that the transport
hands over in RX_PAYLOAD, and then at offset PROGRESS alone, which holds that byte. -/
def Obligations.PbufWrittenByReceiverAlone : Prop :=
  ∀ (s t : State), s.st ≠ .idle → (∀ rest, s.script ≠ .powerOn :: rest) → step s = .next t →
    ∀ a, pbufByte t a = pbufByte s a ∨
      (s.st = .rxPayload ∧ a = s.progress.toNat ∧
        ∃ b more rest, s.script = .rx :: rest ∧ s.link.held = b :: more ∧ pbufByte t a = b)

/-- R318, R341, R144: EDLINK leaves IDLE only by a 32-bit write of a transfer opcode to CMD, with the link open. -/
def Obligations.IdleLeftByCommandOnly : Prop :=
  ∀ (s t : State), s.st = .idle → step s = .next t → t.st ≠ .idle →
    s.link.linkOpen = true ∧
    ∃ v rest, s.script = .hostWrite .w32 0x004 v :: rest ∧ 1 ≤ v.toNat % 256 ∧ v.toNat % 256 ≤ 3

/-- R34, R36, R82, R308: a step puts nothing on the wire, or the one byte that EDLINK offered, at a TxByte. -/
def Obligations.WireCarriesOfferedBytes : Prop :=
  ∀ (s t : State), step s = .next t →
    t.link.wire = s.link.wire ∨
    ∃ b rest, s.script = .tx :: rest ∧ txValid s = true ∧ txData s = some b ∧ t.link.wire = s.link.wire ++ [b]

/-- R43: a sticky bit, once set, stays until CLEAR or a reset. -/
def Obligations.StickyBitsStay : Prop :=
  ∀ (s t : State), step s = .next t →
    (∀ e rest, s.script = e :: rest → e ≠ .reset ∧ e ≠ .powerOn ∧
      ∀ v, e = .hostWrite .w32 0x000 v → v.getLsbD 1 = false) →
    (s.status.cmdRej = true → t.status.cmdRej = true) ∧
    (s.status.hostConflict = true → t.status.hostConflict = true) ∧
    (s.status.elemErr = true → t.status.elemErr = true)

/-! ### Invariants -/

/-- R70: PBUF has no byte outside the buffer. That its record is in canonical form, offsets strictly rising, is the
model's choice (assumption log 1). -/
def Obligations.StepKeepsMemory : Prop :=
  ∀ (s t : State), MemoryInv s → step s = .next t → MemoryInv t

/-- R42, R47, R56, R145, R152, R154, R302, R310: STATUS stays a legal record, and the legal-value fields stay legal. -/
def Obligations.StepKeepsRecords : Prop :=
  ∀ (s t : State), step s = .next t → (StatusInv s → StatusInv t) ∧ (RegisterInv s → RegisterInv t)

/-- R31, R33, R50, R143, R148, R224: every step leaves the sequencing state in a legal position. -/
def Obligations.StepKeepsPosition : Prop :=
  ∀ (s t : State), s.params.wf → PositionInv s → step s = .next t → PositionInv t ∧ t.params = s.params

/-- R206, R209, R234, R269: while a frame is sent or received, ACC stays the checksum of the bytes moved so far. -/
def Obligations.StepKeepsChecksum : Prop :=
  ∀ (s t : State), s.params.wf → PositionInv s → ChecksumInv s → step s = .next t → ChecksumInv t

/-- R59, R9: the invariants hold right after reset, under every legal choice of the parameters, and under the model's
choice of the defaults in `State.reset` (assumption log 2). The canonical form of PBUF among them is the model's
(assumption log 1). -/
def Obligations.ResetIsSound : Prop := (∀ p : Params, p.wf → Inv (State.resetWith p)) ∧ Inv State.reset

/-- R264, R151: one payload byte. It stands at PBUF[PROGRESS], every other byte as before; it is added to ACC, PROGRESS
counts it, and TIMER is 0; RX_CRC follows with IDX 0 where it was the last. Nothing else changes. -/
def Obligations.PayloadByteReceived : Prop :=
  ∀ (s : State) (b : Byte) (more : List Byte) (rest : List Event),
    s.params.wf → s.script = .rx :: rest → s.link.held = b :: more → s.st = .rxPayload →
    s.progress.toNat < s.params.pbufBytes →
    ∃ m : Memory,
      step s = .next
        (let t : State :=
          { handedOver more rest s with
            pbuf := m
            acc := BitVec.ofNat 16 (s.acc.toNat + b.toNat)
            progress := BitVec.ofNat 32 (s.progress.toNat + 1)
            timer := 0#32 }
        if s.progress.toNat + 1 = s.len34.toNat then { t with st := .rxCrc, idx := 0#5 } else t) ∧
      ∀ a, pbufByte { s with pbuf := m } a = if a = s.progress.toNat then b else pbufByte s a
end

