-- ==== Sys2Proof/Laws/State.lean ====
section
/-!
SUPPORT. One lemma per field per named update of State, each true by rfl: what the shared operations write, and
that they leave every other field alone. No later proof unfolds one of these updates.
-/

namespace Sys2Proof.Machine

variable (s : State)


/-! ### enter -/

@[simp] theorem enter_params (x : St) : (enter x s).params = s.params := rfl
@[simp] theorem enter_st (x : St) : (enter x s).st = x := rfl
@[simp] theorem enter_idx (x : St) : (enter x s).idx = s.idx := rfl
@[simp] theorem enter_chunkCnt (x : St) : (enter x s).chunkCnt = s.chunkCnt := rfl
@[simp] theorem enter_hdr (x : St) : (enter x s).hdr = s.hdr := rfl
@[simp] theorem enter_status (x : St) : (enter x s).status = s.status := rfl
@[simp] theorem enter_settings (x : St) : (enter x s).settings = s.settings := rfl
@[simp] theorem enter_rxRaw (x : St) : (enter x s).rxRaw = s.rxRaw := rfl
@[simp] theorem enter_rxCode (x : St) : (enter x s).rxCode = s.rxCode := rfl
@[simp] theorem enter_rxTag (x : St) : (enter x s).rxTag = s.rxTag := rfl
@[simp] theorem enter_rxCount (x : St) : (enter x s).rxCount = s.rxCount := rfl
@[simp] theorem enter_len34 (x : St) : (enter x s).len34 = s.len34 := rfl
@[simp] theorem enter_progress (x : St) : (enter x s).progress = s.progress := rfl
@[simp] theorem enter_timer (x : St) : (enter x s).timer = 0#32 := rfl
@[simp] theorem enter_acc (x : St) : (enter x s).acc = s.acc := rfl
@[simp] theorem enter_crcRx (x : St) : (enter x s).crcRx = s.crcRx := rfl
@[simp] theorem enter_elemFmt (x : St) : (enter x s).elemFmt = s.elemFmt := rfl
@[simp] theorem enter_elemIdx (x : St) : (enter x s).elemIdx = s.elemIdx := rfl
@[simp] theorem enter_pbuf (x : St) : (enter x s).pbuf = s.pbuf := rfl
@[simp] theorem enter_draws (x : St) : (enter x s).draws = s.draws := rfl
@[simp] theorem enter_link (x : St) : (enter x s).link = s.link := rfl
@[simp] theorem enter_readData (x : St) : (enter x s).readData = s.readData := rfl
@[simp] theorem enter_script (x : St) : (enter x s).script = s.script := rfl

/-! ### startTransfer -/

@[simp] theorem startTransfer_params : (startTransfer s).params = s.params := rfl
@[simp] theorem startTransfer_st : (startTransfer s).st = s.st := rfl
@[simp] theorem startTransfer_idx : (startTransfer s).idx = 0#5 := rfl
@[simp] theorem startTransfer_chunkCnt : (startTransfer s).chunkCnt = 0#4 := rfl
@[simp] theorem startTransfer_hdr : (startTransfer s).hdr = s.hdr := rfl
@[simp] theorem startTransfer_status : (startTransfer s).status = { s.status with done := false, error := false, crcMatch := false, errCode := .none, errWait := .none } := rfl
@[simp] theorem startTransfer_settings : (startTransfer s).settings = s.settings := rfl
@[simp] theorem startTransfer_rxRaw : (startTransfer s).rxRaw = s.rxRaw := rfl
@[simp] theorem startTransfer_rxCode : (startTransfer s).rxCode = s.rxCode := rfl
@[simp] theorem startTransfer_rxTag : (startTransfer s).rxTag = s.rxTag := rfl
@[simp] theorem startTransfer_rxCount : (startTransfer s).rxCount = s.rxCount := rfl
@[simp] theorem startTransfer_len34 : (startTransfer s).len34 = 0#34 := rfl
@[simp] theorem startTransfer_progress : (startTransfer s).progress = 0#32 := rfl
@[simp] theorem startTransfer_timer : (startTransfer s).timer = 0#32 := rfl
@[simp] theorem startTransfer_acc : (startTransfer s).acc = s.acc := rfl
@[simp] theorem startTransfer_crcRx : (startTransfer s).crcRx = s.crcRx := rfl
@[simp] theorem startTransfer_elemFmt : (startTransfer s).elemFmt = s.elemFmt := rfl
@[simp] theorem startTransfer_elemIdx : (startTransfer s).elemIdx = s.elemIdx := rfl
@[simp] theorem startTransfer_pbuf : (startTransfer s).pbuf = s.pbuf := rfl
@[simp] theorem startTransfer_draws : (startTransfer s).draws = s.draws := rfl
@[simp] theorem startTransfer_link : (startTransfer s).link = s.link := rfl
@[simp] theorem startTransfer_readData : (startTransfer s).readData = s.readData := rfl
@[simp] theorem startTransfer_script : (startTransfer s).script = s.script := rfl

/-! ### complete -/

@[simp] theorem complete_params : (complete s).params = s.params := rfl
@[simp] theorem complete_st : (complete s).st = .idle := rfl
@[simp] theorem complete_idx : (complete s).idx = 0#5 := rfl
@[simp] theorem complete_chunkCnt : (complete s).chunkCnt = 0#4 := rfl
@[simp] theorem complete_hdr : (complete s).hdr = s.hdr := rfl
@[simp] theorem complete_status : (complete s).status = { s.status with done := true } := rfl
@[simp] theorem complete_settings : (complete s).settings = s.settings := rfl
@[simp] theorem complete_rxRaw : (complete s).rxRaw = s.rxRaw := rfl
@[simp] theorem complete_rxCode : (complete s).rxCode = s.rxCode := rfl
@[simp] theorem complete_rxTag : (complete s).rxTag = s.rxTag := rfl
@[simp] theorem complete_rxCount : (complete s).rxCount = s.rxCount := rfl
@[simp] theorem complete_len34 : (complete s).len34 = s.len34 := rfl
@[simp] theorem complete_progress : (complete s).progress = s.progress := rfl
@[simp] theorem complete_timer : (complete s).timer = s.timer := rfl
@[simp] theorem complete_acc : (complete s).acc = s.acc := rfl
@[simp] theorem complete_crcRx : (complete s).crcRx = s.crcRx := rfl
@[simp] theorem complete_elemFmt : (complete s).elemFmt = s.elemFmt := rfl
@[simp] theorem complete_elemIdx : (complete s).elemIdx = s.elemIdx := rfl
@[simp] theorem complete_pbuf : (complete s).pbuf = s.pbuf := rfl
@[simp] theorem complete_draws : (complete s).draws = s.draws := rfl
@[simp] theorem complete_link : (complete s).link = s.link := rfl
@[simp] theorem complete_readData : (complete s).readData = s.readData := rfl
@[simp] theorem complete_script : (complete s).script = s.script := rfl

/-! ### abort -/

@[simp] theorem abort_params (c : ErrCode) (w : ErrWait) : (abort c w s).params = s.params := rfl
@[simp] theorem abort_st (c : ErrCode) (w : ErrWait) : (abort c w s).st = .idle := rfl
@[simp] theorem abort_idx (c : ErrCode) (w : ErrWait) : (abort c w s).idx = 0#5 := rfl
@[simp] theorem abort_chunkCnt (c : ErrCode) (w : ErrWait) : (abort c w s).chunkCnt = 0#4 := rfl
@[simp] theorem abort_hdr (c : ErrCode) (w : ErrWait) : (abort c w s).hdr = s.hdr := rfl
@[simp] theorem abort_status (c : ErrCode) (w : ErrWait) : (abort c w s).status = { s.status with error := true, done := false, errCode := c, errWait := w } := rfl
@[simp] theorem abort_settings (c : ErrCode) (w : ErrWait) : (abort c w s).settings = s.settings := rfl
@[simp] theorem abort_rxRaw (c : ErrCode) (w : ErrWait) : (abort c w s).rxRaw = s.rxRaw := rfl
@[simp] theorem abort_rxCode (c : ErrCode) (w : ErrWait) : (abort c w s).rxCode = s.rxCode := rfl
@[simp] theorem abort_rxTag (c : ErrCode) (w : ErrWait) : (abort c w s).rxTag = s.rxTag := rfl
@[simp] theorem abort_rxCount (c : ErrCode) (w : ErrWait) : (abort c w s).rxCount = s.rxCount := rfl
@[simp] theorem abort_len34 (c : ErrCode) (w : ErrWait) : (abort c w s).len34 = s.len34 := rfl
@[simp] theorem abort_progress (c : ErrCode) (w : ErrWait) : (abort c w s).progress = s.progress := rfl
@[simp] theorem abort_timer (c : ErrCode) (w : ErrWait) : (abort c w s).timer = s.timer := rfl
@[simp] theorem abort_acc (c : ErrCode) (w : ErrWait) : (abort c w s).acc = s.acc := rfl
@[simp] theorem abort_crcRx (c : ErrCode) (w : ErrWait) : (abort c w s).crcRx = s.crcRx := rfl
@[simp] theorem abort_elemFmt (c : ErrCode) (w : ErrWait) : (abort c w s).elemFmt = s.elemFmt := rfl
@[simp] theorem abort_elemIdx (c : ErrCode) (w : ErrWait) : (abort c w s).elemIdx = s.elemIdx := rfl
@[simp] theorem abort_pbuf (c : ErrCode) (w : ErrWait) : (abort c w s).pbuf = s.pbuf := rfl
@[simp] theorem abort_draws (c : ErrCode) (w : ErrWait) : (abort c w s).draws = s.draws := rfl
@[simp] theorem abort_link (c : ErrCode) (w : ErrWait) : (abort c w s).link = s.link := rfl
@[simp] theorem abort_readData (c : ErrCode) (w : ErrWait) : (abort c w s).readData = s.readData := rfl
@[simp] theorem abort_script (c : ErrCode) (w : ErrWait) : (abort c w s).script = s.script := rfl

/-! ### rejectCommand -/

@[simp] theorem rejectCommand_params : (rejectCommand s).params = s.params := rfl
@[simp] theorem rejectCommand_st : (rejectCommand s).st = s.st := rfl
@[simp] theorem rejectCommand_idx : (rejectCommand s).idx = s.idx := rfl
@[simp] theorem rejectCommand_chunkCnt : (rejectCommand s).chunkCnt = s.chunkCnt := rfl
@[simp] theorem rejectCommand_hdr : (rejectCommand s).hdr = s.hdr := rfl
@[simp] theorem rejectCommand_status : (rejectCommand s).status = { s.status with cmdRej := true } := rfl
@[simp] theorem rejectCommand_settings : (rejectCommand s).settings = s.settings := rfl
@[simp] theorem rejectCommand_rxRaw : (rejectCommand s).rxRaw = s.rxRaw := rfl
@[simp] theorem rejectCommand_rxCode : (rejectCommand s).rxCode = s.rxCode := rfl
@[simp] theorem rejectCommand_rxTag : (rejectCommand s).rxTag = s.rxTag := rfl
@[simp] theorem rejectCommand_rxCount : (rejectCommand s).rxCount = s.rxCount := rfl
@[simp] theorem rejectCommand_len34 : (rejectCommand s).len34 = s.len34 := rfl
@[simp] theorem rejectCommand_progress : (rejectCommand s).progress = s.progress := rfl
@[simp] theorem rejectCommand_timer : (rejectCommand s).timer = s.timer := rfl
@[simp] theorem rejectCommand_acc : (rejectCommand s).acc = s.acc := rfl
@[simp] theorem rejectCommand_crcRx : (rejectCommand s).crcRx = s.crcRx := rfl
@[simp] theorem rejectCommand_elemFmt : (rejectCommand s).elemFmt = s.elemFmt := rfl
@[simp] theorem rejectCommand_elemIdx : (rejectCommand s).elemIdx = s.elemIdx := rfl
@[simp] theorem rejectCommand_pbuf : (rejectCommand s).pbuf = s.pbuf := rfl
@[simp] theorem rejectCommand_draws : (rejectCommand s).draws = s.draws := rfl
@[simp] theorem rejectCommand_link : (rejectCommand s).link = s.link := rfl
@[simp] theorem rejectCommand_readData : (rejectCommand s).readData = s.readData := rfl
@[simp] theorem rejectCommand_script : (rejectCommand s).script = s.script := rfl

/-! ### hostConflict -/

@[simp] theorem hostConflict_params : (hostConflict s).params = s.params := rfl
@[simp] theorem hostConflict_st : (hostConflict s).st = s.st := rfl
@[simp] theorem hostConflict_idx : (hostConflict s).idx = s.idx := rfl
@[simp] theorem hostConflict_chunkCnt : (hostConflict s).chunkCnt = s.chunkCnt := rfl
@[simp] theorem hostConflict_hdr : (hostConflict s).hdr = s.hdr := rfl
@[simp] theorem hostConflict_status : (hostConflict s).status = { s.status with hostConflict := true } := rfl
@[simp] theorem hostConflict_settings : (hostConflict s).settings = s.settings := rfl
@[simp] theorem hostConflict_rxRaw : (hostConflict s).rxRaw = s.rxRaw := rfl
@[simp] theorem hostConflict_rxCode : (hostConflict s).rxCode = s.rxCode := rfl
@[simp] theorem hostConflict_rxTag : (hostConflict s).rxTag = s.rxTag := rfl
@[simp] theorem hostConflict_rxCount : (hostConflict s).rxCount = s.rxCount := rfl
@[simp] theorem hostConflict_len34 : (hostConflict s).len34 = s.len34 := rfl
@[simp] theorem hostConflict_progress : (hostConflict s).progress = s.progress := rfl
@[simp] theorem hostConflict_timer : (hostConflict s).timer = s.timer := rfl
@[simp] theorem hostConflict_acc : (hostConflict s).acc = s.acc := rfl
@[simp] theorem hostConflict_crcRx : (hostConflict s).crcRx = s.crcRx := rfl
@[simp] theorem hostConflict_elemFmt : (hostConflict s).elemFmt = s.elemFmt := rfl
@[simp] theorem hostConflict_elemIdx : (hostConflict s).elemIdx = s.elemIdx := rfl
@[simp] theorem hostConflict_pbuf : (hostConflict s).pbuf = s.pbuf := rfl
@[simp] theorem hostConflict_draws : (hostConflict s).draws = s.draws := rfl
@[simp] theorem hostConflict_link : (hostConflict s).link = s.link := rfl
@[simp] theorem hostConflict_readData : (hostConflict s).readData = s.readData := rfl
@[simp] theorem hostConflict_script : (hostConflict s).script = s.script := rfl

/-! ### elemError -/

@[simp] theorem elemError_params : (elemError s).params = s.params := rfl
@[simp] theorem elemError_st : (elemError s).st = s.st := rfl
@[simp] theorem elemError_idx : (elemError s).idx = s.idx := rfl
@[simp] theorem elemError_chunkCnt : (elemError s).chunkCnt = s.chunkCnt := rfl
@[simp] theorem elemError_hdr : (elemError s).hdr = s.hdr := rfl
@[simp] theorem elemError_status : (elemError s).status = { s.status with elemErr := true } := rfl
@[simp] theorem elemError_settings : (elemError s).settings = s.settings := rfl
@[simp] theorem elemError_rxRaw : (elemError s).rxRaw = s.rxRaw := rfl
@[simp] theorem elemError_rxCode : (elemError s).rxCode = s.rxCode := rfl
@[simp] theorem elemError_rxTag : (elemError s).rxTag = s.rxTag := rfl
@[simp] theorem elemError_rxCount : (elemError s).rxCount = s.rxCount := rfl
@[simp] theorem elemError_len34 : (elemError s).len34 = s.len34 := rfl
@[simp] theorem elemError_progress : (elemError s).progress = s.progress := rfl
@[simp] theorem elemError_timer : (elemError s).timer = s.timer := rfl
@[simp] theorem elemError_acc : (elemError s).acc = s.acc := rfl
@[simp] theorem elemError_crcRx : (elemError s).crcRx = s.crcRx := rfl
@[simp] theorem elemError_elemFmt : (elemError s).elemFmt = s.elemFmt := rfl
@[simp] theorem elemError_elemIdx : (elemError s).elemIdx = s.elemIdx := rfl
@[simp] theorem elemError_pbuf : (elemError s).pbuf = s.pbuf := rfl
@[simp] theorem elemError_draws : (elemError s).draws = s.draws := rfl
@[simp] theorem elemError_link : (elemError s).link = s.link := rfl
@[simp] theorem elemError_readData : (elemError s).readData = s.readData := rfl
@[simp] theorem elemError_script : (elemError s).script = s.script := rfl

/-! ### returnWord -/

@[simp] theorem returnWord_params (v : Word) : (returnWord v s).params = s.params := rfl
@[simp] theorem returnWord_st (v : Word) : (returnWord v s).st = s.st := rfl
@[simp] theorem returnWord_idx (v : Word) : (returnWord v s).idx = s.idx := rfl
@[simp] theorem returnWord_chunkCnt (v : Word) : (returnWord v s).chunkCnt = s.chunkCnt := rfl
@[simp] theorem returnWord_hdr (v : Word) : (returnWord v s).hdr = s.hdr := rfl
@[simp] theorem returnWord_status (v : Word) : (returnWord v s).status = s.status := rfl
@[simp] theorem returnWord_settings (v : Word) : (returnWord v s).settings = s.settings := rfl
@[simp] theorem returnWord_rxRaw (v : Word) : (returnWord v s).rxRaw = s.rxRaw := rfl
@[simp] theorem returnWord_rxCode (v : Word) : (returnWord v s).rxCode = s.rxCode := rfl
@[simp] theorem returnWord_rxTag (v : Word) : (returnWord v s).rxTag = s.rxTag := rfl
@[simp] theorem returnWord_rxCount (v : Word) : (returnWord v s).rxCount = s.rxCount := rfl
@[simp] theorem returnWord_len34 (v : Word) : (returnWord v s).len34 = s.len34 := rfl
@[simp] theorem returnWord_progress (v : Word) : (returnWord v s).progress = s.progress := rfl
@[simp] theorem returnWord_timer (v : Word) : (returnWord v s).timer = s.timer := rfl
@[simp] theorem returnWord_acc (v : Word) : (returnWord v s).acc = s.acc := rfl
@[simp] theorem returnWord_crcRx (v : Word) : (returnWord v s).crcRx = s.crcRx := rfl
@[simp] theorem returnWord_elemFmt (v : Word) : (returnWord v s).elemFmt = s.elemFmt := rfl
@[simp] theorem returnWord_elemIdx (v : Word) : (returnWord v s).elemIdx = s.elemIdx := rfl
@[simp] theorem returnWord_pbuf (v : Word) : (returnWord v s).pbuf = s.pbuf := rfl
@[simp] theorem returnWord_draws (v : Word) : (returnWord v s).draws = s.draws := rfl
@[simp] theorem returnWord_link (v : Word) : (returnWord v s).link = s.link := rfl
@[simp] theorem returnWord_readData (v : Word) : (returnWord v s).readData = v := rfl
@[simp] theorem returnWord_script (v : Word) : (returnWord v s).script = s.script := rfl

/-! ### initAcc -/

@[simp] theorem initAcc_params : (initAcc s).params = s.params := rfl
@[simp] theorem initAcc_st : (initAcc s).st = s.st := rfl
@[simp] theorem initAcc_idx : (initAcc s).idx = s.idx := rfl
@[simp] theorem initAcc_chunkCnt : (initAcc s).chunkCnt = s.chunkCnt := rfl
@[simp] theorem initAcc_hdr : (initAcc s).hdr = s.hdr := rfl
@[simp] theorem initAcc_status : (initAcc s).status = s.status := rfl
@[simp] theorem initAcc_settings : (initAcc s).settings = s.settings := rfl
@[simp] theorem initAcc_rxRaw : (initAcc s).rxRaw = s.rxRaw := rfl
@[simp] theorem initAcc_rxCode : (initAcc s).rxCode = s.rxCode := rfl
@[simp] theorem initAcc_rxTag : (initAcc s).rxTag = s.rxTag := rfl
@[simp] theorem initAcc_rxCount : (initAcc s).rxCount = s.rxCount := rfl
@[simp] theorem initAcc_len34 : (initAcc s).len34 = s.len34 := rfl
@[simp] theorem initAcc_progress : (initAcc s).progress = s.progress := rfl
@[simp] theorem initAcc_timer : (initAcc s).timer = s.timer := rfl
@[simp] theorem initAcc_acc : (initAcc s).acc = Config.seed := rfl
@[simp] theorem initAcc_crcRx : (initAcc s).crcRx = s.crcRx := rfl
@[simp] theorem initAcc_elemFmt : (initAcc s).elemFmt = s.elemFmt := rfl
@[simp] theorem initAcc_elemIdx : (initAcc s).elemIdx = s.elemIdx := rfl
@[simp] theorem initAcc_pbuf : (initAcc s).pbuf = s.pbuf := rfl
@[simp] theorem initAcc_draws : (initAcc s).draws = s.draws := rfl
@[simp] theorem initAcc_link : (initAcc s).link = s.link := rfl
@[simp] theorem initAcc_readData : (initAcc s).readData = s.readData := rfl
@[simp] theorem initAcc_script : (initAcc s).script = s.script := rfl

/-! ### feedAcc -/

@[simp] theorem feedAcc_params (b : Byte) : (feedAcc b s).params = s.params := rfl
@[simp] theorem feedAcc_st (b : Byte) : (feedAcc b s).st = s.st := rfl
@[simp] theorem feedAcc_idx (b : Byte) : (feedAcc b s).idx = s.idx := rfl
@[simp] theorem feedAcc_chunkCnt (b : Byte) : (feedAcc b s).chunkCnt = s.chunkCnt := rfl
@[simp] theorem feedAcc_hdr (b : Byte) : (feedAcc b s).hdr = s.hdr := rfl
@[simp] theorem feedAcc_status (b : Byte) : (feedAcc b s).status = s.status := rfl
@[simp] theorem feedAcc_settings (b : Byte) : (feedAcc b s).settings = s.settings := rfl
@[simp] theorem feedAcc_rxRaw (b : Byte) : (feedAcc b s).rxRaw = s.rxRaw := rfl
@[simp] theorem feedAcc_rxCode (b : Byte) : (feedAcc b s).rxCode = s.rxCode := rfl
@[simp] theorem feedAcc_rxTag (b : Byte) : (feedAcc b s).rxTag = s.rxTag := rfl
@[simp] theorem feedAcc_rxCount (b : Byte) : (feedAcc b s).rxCount = s.rxCount := rfl
@[simp] theorem feedAcc_len34 (b : Byte) : (feedAcc b s).len34 = s.len34 := rfl
@[simp] theorem feedAcc_progress (b : Byte) : (feedAcc b s).progress = s.progress := rfl
@[simp] theorem feedAcc_timer (b : Byte) : (feedAcc b s).timer = s.timer := rfl
@[simp] theorem feedAcc_acc (b : Byte) : (feedAcc b s).acc = sumUpdate s.acc b := rfl
@[simp] theorem feedAcc_crcRx (b : Byte) : (feedAcc b s).crcRx = s.crcRx := rfl
@[simp] theorem feedAcc_elemFmt (b : Byte) : (feedAcc b s).elemFmt = s.elemFmt := rfl
@[simp] theorem feedAcc_elemIdx (b : Byte) : (feedAcc b s).elemIdx = s.elemIdx := rfl
@[simp] theorem feedAcc_pbuf (b : Byte) : (feedAcc b s).pbuf = s.pbuf := rfl
@[simp] theorem feedAcc_draws (b : Byte) : (feedAcc b s).draws = s.draws := rfl
@[simp] theorem feedAcc_link (b : Byte) : (feedAcc b s).link = s.link := rfl
@[simp] theorem feedAcc_readData (b : Byte) : (feedAcc b s).readData = s.readData := rfl
@[simp] theorem feedAcc_script (b : Byte) : (feedAcc b s).script = s.script := rfl

/-! ### recordMatch -/

@[simp] theorem recordMatch_params : (recordMatch s).params = s.params := rfl
@[simp] theorem recordMatch_st : (recordMatch s).st = s.st := rfl
@[simp] theorem recordMatch_idx : (recordMatch s).idx = s.idx := rfl
@[simp] theorem recordMatch_chunkCnt : (recordMatch s).chunkCnt = s.chunkCnt := rfl
@[simp] theorem recordMatch_hdr : (recordMatch s).hdr = s.hdr := rfl
@[simp] theorem recordMatch_status : (recordMatch s).status = { s.status with crcMatch := s.crcRx == s.acc } := rfl
@[simp] theorem recordMatch_settings : (recordMatch s).settings = s.settings := rfl
@[simp] theorem recordMatch_rxRaw : (recordMatch s).rxRaw = s.rxRaw := rfl
@[simp] theorem recordMatch_rxCode : (recordMatch s).rxCode = s.rxCode := rfl
@[simp] theorem recordMatch_rxTag : (recordMatch s).rxTag = s.rxTag := rfl
@[simp] theorem recordMatch_rxCount : (recordMatch s).rxCount = s.rxCount := rfl
@[simp] theorem recordMatch_len34 : (recordMatch s).len34 = s.len34 := rfl
@[simp] theorem recordMatch_progress : (recordMatch s).progress = s.progress := rfl
@[simp] theorem recordMatch_timer : (recordMatch s).timer = s.timer := rfl
@[simp] theorem recordMatch_acc : (recordMatch s).acc = s.acc := rfl
@[simp] theorem recordMatch_crcRx : (recordMatch s).crcRx = s.crcRx := rfl
@[simp] theorem recordMatch_elemFmt : (recordMatch s).elemFmt = s.elemFmt := rfl
@[simp] theorem recordMatch_elemIdx : (recordMatch s).elemIdx = s.elemIdx := rfl
@[simp] theorem recordMatch_pbuf : (recordMatch s).pbuf = s.pbuf := rfl
@[simp] theorem recordMatch_draws : (recordMatch s).draws = s.draws := rfl
@[simp] theorem recordMatch_link : (recordMatch s).link = s.link := rfl
@[simp] theorem recordMatch_readData : (recordMatch s).readData = s.readData := rfl
@[simp] theorem recordMatch_script : (recordMatch s).script = s.script := rfl

/-! ### The status accessors -/

@[simp] theorem busy_enter (x : St) : busy (enter x s) = (x != .idle) := rfl
@[simp] theorem busy_complete : busy (complete s) = false := rfl
@[simp] theorem busy_abort (c : ErrCode) (w : ErrWait) : busy (abort c w s) = false := rfl
@[simp] theorem busy_startTransfer : busy (startTransfer s) = busy s := rfl
@[simp] theorem busy_rejectCommand : busy (rejectCommand s) = busy s := rfl
@[simp] theorem busy_hostConflict : busy (hostConflict s) = busy s := rfl
@[simp] theorem busy_elemError : busy (elemError s) = busy s := rfl
@[simp] theorem busy_returnWord (v : Word) : busy (returnWord v s) = busy s := rfl
@[simp] theorem busy_initAcc : busy (initAcc s) = busy s := rfl
@[simp] theorem busy_feedAcc (b : Byte) : busy (feedAcc b s) = busy s := rfl

theorem busy_eq_false_iff : busy s = false ↔ s.st = .idle := by simp [busy]

theorem busy_eq_true_iff : busy s = true ↔ s.st ≠ .idle := by simp [busy]

end Sys2Proof.Machine
end

