-- ==== Sys2Proof/Laws/Decode.lean ====
section
/-!
SUPPORT. Bytes of words, fields of words, and the window's index: what the decoder reads where the encoder wrote.
-/

namespace Sys2Proof

theorem wordOfBytes_toNat (b0 b1 b2 b3 : Byte) :
    (wordOfBytes b0 b1 b2 b3).toNat = b0.toNat + 256 * b1.toNat + 65536 * b2.toNat + 16777216 * b3.toNat := by
  have h0 := b0.isLt
  have h1 := b1.isLt
  have h2 := b2.isLt
  have h3 := b3.isLt
  simp only [wordOfBytes, BitVec.toNat_append, Nat.shiftLeft_eq]
  rw [← Nat.shiftLeft_eq, ← Nat.shiftLeft_eq, ← Nat.shiftLeft_eq]
  rw [← Nat.shiftLeft_add_eq_or_of_lt h2, ← Nat.shiftLeft_add_eq_or_of_lt h1, ← Nat.shiftLeft_add_eq_or_of_lt h0]
  simp only [Nat.shiftLeft_eq]
  omega

theorem byteOf_toNat (v : Word) (i : Nat) : (byteOf v i).toNat = v.toNat / 256 ^ i % 256 := by
  simp only [byteOf, BitVec.extractLsb'_toNat, Nat.shiftRight_eq_div_pow, pow_mul]
  norm_num

@[simp] theorem wordOfBytes_byteOf (v : Word) :
    wordOfBytes (byteOf v 0) (byteOf v 1) (byteOf v 2) (byteOf v 3) = v := by
  have hv := v.isLt
  apply BitVec.eq_of_toNat_eq
  simp only [wordOfBytes_toNat, byteOf_toNat]
  norm_num
  omega

/-! ### Offsets -/

theorem numberOf_append (xs ys : List Byte) : numberOf (xs ++ ys) = numberOf xs + 256 ^ xs.length * numberOf ys := by
  induction xs with
  | nil => simp [numberOf]
  | cons b xs ih =>
    simp only [List.cons_append, numberOf, ih, List.length_cons, pow_succ]
    ring

theorem numberOf_bytesOfNumber (fuel n : Nat) (h : n ≤ fuel) : numberOf (bytesOfNumber fuel n) = n := by
  induction fuel generalizing n with
  | zero => simp [bytesOfNumber, numberOf]; omega
  | succ fuel ih =>
    by_cases hn : n = 0
    · simp [bytesOfNumber, numberOf, hn]
    · simp only [bytesOfNumber, hn, if_false, numberOf, BitVec.toNat_ofNat]
      rw [ih (n / 256) (by omega)]
      omega

theorem numberOf_bytesOfWord (v : Word) : numberOf (bytesOfWord v) = v.toNat := by
  have hv := v.isLt
  simp only [bytesOfWord, numberOf, byteOf_toNat]
  norm_num
  omega

/-- A host offset's bytes are the offset's, whatever its size. -/
theorem numberOf_offsetBytes (off : Nat) : numberOf (offsetBytes off) = off := by
  rw [offsetBytes, numberOf_append, numberOf_bytesOfWord, numberOf_bytesOfNumber _ _ le_rfl, BitVec.toNat_ofNat]
  have h4 : (bytesOfWord (BitVec.ofNat 32 off)).length = 4 := rfl
  rw [h4]
  norm_num
  omega

@[simp] theorem readOffset_offsetBytes (off : Nat) : readOffset (offsetBytes off) = some off := by
  rw [readOffset, if_pos (by simp [offsetBytes, bytesOfWord]), numberOf_offsetBytes]

@[simp] theorem splitAccess_writeBytes (off : Nat) (v : Word) :
    splitAccess (offsetBytes off ++ bytesOfWord v) = some (off, v) := by
  have h4 : (bytesOfWord v).length = 4 := rfl
  have hl : (offsetBytes off ++ bytesOfWord v).length - 4 = (offsetBytes off).length := by
    rw [List.length_append, h4, Nat.add_sub_cancel]
  rw [splitAccess, hl, List.take_left, List.drop_left, readOffset_offsetBytes]
  simp only [bytesOfWord, wordOfBytes_byteOf]

/-! ### The window -/

theorem inWindow_eq_isSome (p : Params) (off : Nat) : inWindow p off = (windowIndex p off).isSome := by
  simp only [inWindow, windowIndex]
  split
  · rename_i h
    simp [h]
  · rename_i h
    by_contra hc
    simp only [Option.isSome_none, Bool.not_eq_false, Bool.and_eq_true, beq_iff_eq, decide_eq_true_eq] at hc
    exact h ⟨hc.1.1.1, hc.1.1.2, hc.1.2, hc.2⟩

/-- An offset below the window is none of the window's. -/
theorem windowIndex_low (p : Params) (off : Nat) (h : off < 0x1000) : windowIndex p off = none := by
  rw [windowIndex, if_neg]
  rintro ⟨-, h1, -, -⟩
  exact absurd h1 (by simpa [Config.windowBase] using h)

/-- What a window index is: the word's number, its offset within the buffer. -/
theorem windowIndex_some {p : Params} {off k : Nat} (h : windowIndex p off = some k) :
    off = 0x1000 + 4 * k ∧ 4 * k < p.pbufBytes := by
  rw [windowIndex] at h
  by_cases hc : off % 4 = 0 ∧ Config.windowBase ≤ off ∧ off < Config.windowBase + p.pbufBytes ∧ off < 2 ^ p.hostAddrW
  · rw [if_pos hc] at h
    obtain ⟨h1, h2, h3, -⟩ := hc
    have hk := Option.some.inj h
    simp only [Config.windowBase] at h2 h3 hk
    omega
  · rw [if_neg hc] at h
    cases h

theorem windowIndex_windowOffset {p : Params} {k : Nat} (hp : p.wf) (hk : 4 * k + 4 ≤ p.pbufBytes) :
    windowIndex p (windowOffset k) = some k := by
  obtain ⟨h0, h1, h2, h3, h4⟩ := hp
  simp only [Config.windowBase] at h4
  rw [windowIndex, windowOffset, if_pos]
  · congr 1
    omega
  · simp only [Config.windowBase]
    exact ⟨by omega, by omega, by omega, by omega⟩

end Sys2Proof
end

