-- ==== Sys2Proof/Laws/Memory.lean ====
section
/-!
SUPPORT. PBUF: read after write, the canonical form, and what the operations over it leave alone.
-/

namespace Sys2Proof.Machine

/-! ### Read and write -/

theorem read_write (m : Memory) (a c : Nat) (b : Byte) :
    Memory.read (Memory.write m a b) c = if c = a then some b else Memory.read m c := by
  induction m with
  | nil => simp [Memory.write, Memory.read]
  | cons e rest ih =>
    obtain ⟨d, v⟩ := e
    by_cases hlt : a < d
    · simp [Memory.write, Memory.read, hlt]
    · by_cases heq : a = d
      · subst heq
        by_cases hc : c = a <;> simp [Memory.write, Memory.read, hc]
      · by_cases hc : c = d
        · subst hc
          simp [Memory.write, Memory.read, hlt, heq, Ne.symm heq]
        · simp [Memory.write, Memory.read, hlt, heq, hc, ih]

theorem read_write_same (m : Memory) (a : Nat) (b : Byte) : Memory.read (Memory.write m a b) a = some b := by
  simp [read_write]

theorem read_write_other (m : Memory) {a c : Nat} (b : Byte) (h : c ≠ a) :
    Memory.read (Memory.write m a b) c = Memory.read m c := by
  simp [read_write, h]

/-! ### The canonical form -/

theorem mem_write_offset (m : Memory) (a : Nat) (b : Byte) (x : Host.Cell) (h : x ∈ Memory.write m a b) :
    x.1 = a ∨ x ∈ m := by
  induction m with
  | nil => simp [Memory.write] at h; exact .inl (by rw [h])
  | cons e rest ih =>
    obtain ⟨d, v⟩ := e
    simp only [Memory.write] at h
    split at h
    · rcases List.mem_cons.mp h with h | h
      · exact .inl (by rw [h])
      · exact .inr h
    · split at h
      · rcases List.mem_cons.mp h with h | h
        · exact .inl (by rw [h])
        · exact .inr (List.mem_cons_of_mem _ h)
      · rcases List.mem_cons.mp h with h | h
        · exact .inr (by rw [h]; exact List.mem_cons_self)
        · exact (ih h).imp id (List.mem_cons_of_mem _)

theorem Memory.wf_cons {d : Nat} {v : Byte} {rest : Memory} :
    Memory.wf ((d, v) :: rest) ↔ (∀ x ∈ rest, d < x.1) ∧ Memory.wf rest := by
  simp [Memory.wf]

/-- A write keeps the canonical form. -/
theorem write_wf (m : Memory) (a : Nat) (b : Byte) (h : m.wf) : (Memory.write m a b).wf := by
  induction m with
  | nil => simp [Memory.write, Memory.wf]
  | cons e rest ih =>
    obtain ⟨d, v⟩ := e
    obtain ⟨hd, hr⟩ := Memory.wf_cons.mp h
    simp only [Memory.write]
    split
    · rename_i hlt
      refine Memory.wf_cons.mpr ⟨?_, h⟩
      intro x hx
      rcases List.mem_cons.mp hx with rfl | hx
      · exact hlt
      · exact lt_trans hlt (hd x hx)
    · split
      · rename_i heq
        subst heq
        exact Memory.wf_cons.mpr ⟨hd, hr⟩
      · rename_i hnlt hne
        refine Memory.wf_cons.mpr ⟨?_, ih hr⟩
        intro x hx
        rcases mem_write_offset rest a b x hx with hx | hx
        · omega
        · exact hd x hx

/-- A write to an existing offset keeps every listed offset inside the buffer. -/
theorem write_within (n : Nat) (m : Memory) (a : Nat) (b : Byte) (ha : a < n) (h : m.within n) :
    (Memory.write m a b).within n := by
  intro x hx
  rcases mem_write_offset m a b x hx with hx | hx
  · omega
  · exact h x hx

theorem reset_memory (p : Params) : MemoryInv (State.resetWith p) := by
  simp [MemoryInv, State.resetWith, Memory.wf, Memory.within]

/-! ### The machine's operations over PBUF -/

/-- `PBUF[a] <- b` changes nothing but PBUF. -/
theorem setPbufByte_frame (a : Nat) (b : Byte) (s : State) :
    setPbufByte a b s = { s with pbuf := (setPbufByte a b s).pbuf } := by
  simp only [setPbufByte]
  split <;> rfl

theorem setPbufByte_memoryInv (a : Nat) (b : Byte) (s : State) (h : MemoryInv s) : MemoryInv (setPbufByte a b s) := by
  simp only [setPbufByte]
  split
  · rename_i ha
    exact ⟨write_wf _ _ _ h.1, write_within _ _ _ _ ha h.2⟩
  · exact h

theorem pbufByte_setPbufByte (a c : Nat) (b : Byte) (s : State) (ha : a < s.params.pbufBytes) :
    pbufByte (setPbufByte a b s) c = if c = a then b else pbufByte s c := by
  simp only [setPbufByte, ha, if_true, pbufByte, read_write]
  split <;> rfl

/-- `MemWrite` changes nothing but PBUF. -/
theorem memWrite_frame (n off : Nat) (v : Word) (s : State) :
    memWrite off v n s = { s with pbuf := (memWrite off v n s).pbuf } := by
  induction n generalizing off v s with
  | zero => rfl
  | succ n ih =>
    simp only [memWrite]
    rw [ih, setPbufByte_frame]

theorem memWrite_memoryInv (n off : Nat) (v : Word) (s : State) (h : MemoryInv s) : MemoryInv (memWrite off v n s) := by
  induction n generalizing off v s with
  | zero => exact h
  | succ n ih => exact ih _ _ _ (setPbufByte_memoryInv _ _ _ h)

theorem setPbufByte_params (a : Nat) (b : Byte) (s : State) : (setPbufByte a b s).params = s.params := by
  rw [setPbufByte_frame]

theorem memWrite_params (n off : Nat) (v : Word) (s : State) : (memWrite off v n s).params = s.params := by
  rw [memWrite_frame]

/-- What `MemWrite` stores: byte `j` of `v` at `off + j` for each of its `n` bytes, and nothing elsewhere. -/
theorem pbufByte_memWrite (n off c : Nat) (v : Word) (s : State) (h : off + n ≤ s.params.pbufBytes) :
    pbufByte (memWrite off v n s) c =
      if off ≤ c ∧ c < off + n then v.extractLsb' (8 * (c - off)) 8 else pbufByte s c := by
  induction n generalizing off v s with
  | zero =>
    rw [if_neg (by omega)]
    rfl
  | succ n ih =>
    simp only [memWrite]
    rw [ih _ _ _ (by rw [setPbufByte_params]; omega), pbufByte_setPbufByte _ _ _ _ (by omega)]
    by_cases hc : c = off
    · subst hc
      rw [if_neg (by omega), if_pos rfl, if_pos (by omega)]
      simp only [Nat.sub_self, Nat.mul_zero]
      ext i hi
      simp
    · by_cases hin : off + 1 ≤ c ∧ c < off + 1 + n
      · rw [if_pos hin, if_pos (by omega)]
        ext i hi
        simp only [BitVec.getElem_extractLsb', BitVec.getLsbD_ushiftRight]
        congr 1
        omega
      · rw [if_neg hin, if_neg hc, if_neg (by omega)]

/-- `MemRead` reads PBUF alone: equal bytes give equal values. -/
theorem memRead_congr (n off : Nat) (s t : State)
    (h : ∀ c, off ≤ c → c < off + n → pbufByte s c = pbufByte t c) : memRead s off n = memRead t off n := by
  induction n generalizing off with
  | zero => rfl
  | succ n ih =>
    simp only [memRead]
    rw [ih (off + 1) (fun c h1 h2 => h c (by omega) (by omega)), h off (le_refl _) (by omega)]

/-- `MemRead` of at most four bytes is the little-endian number in them. -/
theorem memRead_toNat (n off : Nat) (s : State) (hn : n ≤ 4) : (memRead s off n).toNat = pbufNumber s off n := by
  have bound : ∀ k o, pbufNumber s o k < 256 ^ k := by
    intro k
    induction k with
    | zero => intro o; simp [pbufNumber]
    | succ k ih =>
      intro o
      have := ih (o + 1)
      have hb := (pbufByte s o).isLt
      simp only [pbufNumber, pow_succ]
      omega
  induction n generalizing off with
  | zero => rfl
  | succ n ih =>
    have ihn := ih (off + 1) (by omega)
    have hlt : pbufNumber s (off + 1) n < 2 ^ 24 := by
      refine lt_of_lt_of_le (bound n (off + 1)) ?_
      calc 256 ^ n ≤ 256 ^ 3 := Nat.pow_le_pow_right (by omega) (by omega)
        _ = 2 ^ 24 := by norm_num
    have hb := (pbufByte s off).isLt
    simp only [memRead, pbufNumber]
    rw [BitVec.or_comm, BitVec.toNat_or, BitVec.toNat_shiftLeft, ihn, BitVec.toNat_setWidth,
      Nat.mod_eq_of_lt (by omega : (pbufByte s off).toNat < 2 ^ 32), Nat.shiftLeft_eq,
      Nat.mod_eq_of_lt (by omega : pbufNumber s (off + 1) n * 2 ^ 8 < 2 ^ 32), Nat.mul_comm _ (2 ^ 8), Nat.or_comm,
      ← Nat.two_pow_add_eq_or_of_lt (by omega : (pbufByte s off).toNat < 2 ^ 8)]
    omega

end Sys2Proof.Machine
end

