-- ==== Sys2Proof/Laws/Engine.lean ====
section
/-!
SUPPORT. For each shared operation that branches, one lemma that says everything it can do. Later proofs cite these
instead of unfolding the operation.
-/

namespace Sys2Proof.Machine

variable (s : State) (b : Byte)

/-! ### Locks, commands, CTRL -/

theorem lockedWrite_busy {f : State → State} (h : busy s = true) : lockedWrite f s = hostConflict s := if_pos h

theorem lockedWrite_idle {f : State → State} (h : busy s = false) : lockedWrite f s = f s :=
  if_neg (by simp [h])

theorem acceptCommand_busy {f : State → State} (h : busy s = true) : acceptCommand f s = rejectCommand s := if_pos h

theorem acceptCommand_idle {f : State → State} (h : busy s = false) : acceptCommand f s = f s :=
  if_neg (by simp [h])

theorem cancelTransfer_cases :
    (busy s = true ∧ cancelTransfer s = abort .cancelled .none s) ∨ (busy s = false ∧ cancelTransfer s = s) := by
  cases h : busy s <;> simp [cancelTransfer, h]

theorem clearRecord_cases :
    (busy s = true ∧ clearRecord s =
      { s with status := { s.status with cmdRej := false, hostConflict := false, elemErr := false } }) ∨
    (busy s = false ∧ clearRecord s = { s with status := Status.reset }) := by
  cases h : busy s <;> simp [clearRecord, h, Status.reset]

/-! ### Starting a transfer -/

theorem formatOf_eq_none_iff (f : Byte) : formatOf f = none ↔ specWidth f = none := by
  revert f
  decide

theorem specWidth_eq_some_iff (f : Byte) (w : Nat) :
    specWidth f = some w ↔ ∃ c, formatOf f = some c ∧ width c = w := by
  revert w
  have key : ∀ f : Byte, specWidth f = (formatOf f).map width := by decide
  intro w
  rw [key, Option.map_eq_some_iff]

theorem payloadLen_toNat (count : Word) (f : FormatCode) : (payloadLen count f).toNat = count.toNat * width f := by
  have hc := count.isLt
  have hw : width f ≤ 4 := by cases f <;> decide
  have hp : count.toNat * width f ≤ count.toNat * 4 := Nat.mul_le_mul_left _ hw
  simp only [payloadLen, BitVec.toNat_mul, BitVec.toNat_setWidth, BitVec.toNat_ofNat]
  rw [Nat.mod_eq_of_lt (by omega : count.toNat < 2 ^ 34), Nat.mod_eq_of_lt (by omega : width f < 2 ^ 34),
    Nat.mod_eq_of_lt (by omega)]

theorem startSendData_cases :
    (s.link.linkOpen = false ∧ startSendData s = abort .connection .none (startTransfer s)) ∨
    (s.link.linkOpen = true ∧ formatOf s.settings.txFmt = none ∧
      startSendData s = abort .unsupportedType .none (startTransfer s)) ∨
    (∃ f, s.link.linkOpen = true ∧ formatOf s.settings.txFmt = some f ∧
      s.params.pbufBytes < (payloadLen s.settings.txCount f).toNat ∧
      startSendData s =
        abort .capacity .none { startTransfer s with len34 := payloadLen s.settings.txCount f }) ∨
    (∃ f, s.link.linkOpen = true ∧ formatOf s.settings.txFmt = some f ∧
      (payloadLen s.settings.txCount f).toNat ≤ s.params.pbufBytes ∧
      startSendData s =
        enter .txHdr (initAcc { startTransfer s with len34 := payloadLen s.settings.txCount f })) := by
  cases hl : s.link.linkOpen
  · exact .inl ⟨rfl, by simp [startSendData, hl]⟩
  · cases hf : formatOf s.settings.txFmt with
    | none => exact .inr (.inl ⟨rfl, rfl, by simp [startSendData, sendDataChecks, hl, hf]⟩)
    | some f =>
      by_cases hc : s.params.pbufBytes < (payloadLen s.settings.txCount f).toNat
      · exact .inr (.inr (.inl ⟨f, rfl, rfl, hc, by simp [startSendData, sendDataChecks, hl, hf, hc]⟩))
      · refine .inr (.inr (.inr ⟨f, rfl, rfl, by omega, ?_⟩))
        simp [startSendData, sendDataChecks, hl, hf, hc, enter, initAcc, startTransfer]

theorem startRecvData_cases :
    (s.link.linkOpen = false ∧ startRecvData s = abort .connection .none (startTransfer s)) ∨
    (s.link.linkOpen = true ∧
      startRecvData s = enter .rxWaitSync (initAcc { startTransfer s with crcRx := 0#16 })) := by
  cases hl : s.link.linkOpen
  · exact .inl ⟨rfl, by simp [startRecvData, hl]⟩
  · exact .inr ⟨rfl, by simp [startRecvData, hl, enter, initAcc, startTransfer]⟩

theorem startSendToken_cases :
    (s.link.linkOpen = false ∧ startSendToken s = abort .connection .none (startTransfer s)) ∨
    (s.link.linkOpen = true ∧ s.settings.tokenLen = 0#5 ∧
      startSendToken s = enter .tokWait { startTransfer s with len34 := s.settings.tokenLen.setWidth 34 }) ∨
    (s.link.linkOpen = true ∧ s.settings.tokenLen ≠ 0#5 ∧
      startSendToken s = enter .tokSend { startTransfer s with len34 := s.settings.tokenLen.setWidth 34 }) := by
  cases hl : s.link.linkOpen
  · exact .inl ⟨rfl, by simp [startSendToken, hl]⟩
  · by_cases ht : s.settings.tokenLen = 0#5
    · exact .inr (.inl ⟨rfl, ht, by simp [startSendToken, hl, ht, enter, startTransfer]⟩)
    · exact .inr (.inr ⟨rfl, ht, by simp [startSendToken, hl, ht, enter, startTransfer]⟩)

/-! ### Bytes and ticks by state -/

theorem rxReady_iff : rxReady s = true ↔
    s.st = .txWaitReady ∨ s.st = .txWaitAck ∨ s.st = .rxWaitSync ∨ s.st = .rxHdr ∨ s.st = .rxPayload ∨
      s.st = .rxCrc ∨ s.st = .tokWait := by
  cases h : s.st <;> simp [rxReady, h]

theorem txValid_iff : txValid s = true ↔
    s.st = .txHdr ∨ s.st = .txPayload ∨ s.st = .txCrc ∨ s.st = .rxReady ∨ s.st = .rxAck ∨ s.st = .tokSend := by
  cases h : s.st <;> simp [txValid, h]

theorem offerByte_cases :
    (rxReady s = false ∧ offerByte b s = { s with link := { s.link with held := b :: s.link.held } }) ∨
    (s.st = .txWaitReady ∧ offerByte b s = waitReadyGot b s) ∨
    (s.st = .txWaitAck ∧ offerByte b s = waitAckGot b s) ∨
    (s.st = .rxWaitSync ∧ offerByte b s = waitSyncGot b s) ∨
    (s.st = .rxHdr ∧ offerByte b s = rxHdrGot b s) ∨
    (s.st = .rxPayload ∧ offerByte b s = rxPayloadGot b s) ∨
    (s.st = .rxCrc ∧ offerByte b s = rxCrcGot b s) ∨
    (s.st = .tokWait ∧ offerByte b s = tokWaitGot b s) := by
  cases h : s.st <;> simp [offerByte, rxReady, rxByte, h]

/-- The transport takes `b` where EDLINK offers it, and the wire carries it; elsewhere nothing passes. -/
theorem takeByte_cases (w : State) (hw : w = { s with link := { s.link with wire := s.link.wire ++ [b] } }) :
    (txData s ≠ some b ∧ takeByte b s = s) ∨
    (s.st = .txHdr ∧ txData s = some b ∧ takeByte b s = txHdrSent w) ∨
    (s.st = .txPayload ∧ b = pbufByte s s.progress.toNat ∧ takeByte b s = txPayloadSent b w) ∨
    (s.st = .txCrc ∧ txData s = some b ∧ takeByte b s = txCrcSent w) ∨
    (s.st = .rxReady ∧ b = Config.readyByte ∧ takeByte b s = readySent w) ∨
    (s.st = .rxAck ∧ b = Config.ackByte ∧ takeByte b s = complete w) ∨
    (s.st = .tokSend ∧ txData s = some b ∧ takeByte b s = tokenSent w) := by
  by_cases hd : txData s = some b
  · subst hw
    cases h : s.st <;> simp [takeByte, txByte, h, hd, ackSent] <;>
      simp [txData, h] at hd <;> exact hd.symm
  · exact .inl ⟨hd, if_neg hd⟩

theorem deadline_cases (dl : Word) (code : ErrCode) (wait : ErrWait) :
    (dl ≠ 0#32 ∧ s.timer ≥ dl ∧ deadline dl code wait s = abort code wait s) ∨
    ((dl = 0#32 ∨ s.timer < dl) ∧ deadline dl code wait s = s) := by
  by_cases h : dl ≠ 0#32 ∧ s.timer ≥ dl
  · exact .inl ⟨h.1, h.2, if_pos h⟩
  · refine .inr ⟨?_, if_neg h⟩
    by_cases hd : dl = 0#32
    · exact .inl hd
    · exact .inr (BitVec.not_le.mp fun hle => h ⟨hd, hle⟩)

theorem tickStep_idle (h : s.st = .idle) : tickStep s = s := if_pos h

theorem tickStep_wait {dl : Word} {code : ErrCode} {wait : ErrWait} (h : waitBound s = some (dl, code, wait)) :
    tickStep s = deadline dl code wait { s with timer := satInc s.timer } := by
  cases hs : s.st <;> simp [waitBound, hs] at h <;> obtain ⟨rfl, rfl, rfl⟩ := h <;> simp [tickStep, tickRule, hs]

theorem tickStep_gap (h : s.st = .txGap) : tickStep s = txGapTick { s with timer := satInc s.timer } := by
  simp [tickStep, tickRule, h]

theorem tickStep_other (h1 : s.st ≠ .idle) (h2 : s.st ≠ .txGap) (h3 : waitBound s = none) :
    tickStep s = { s with timer := satInc s.timer } := by
  cases hs : s.st <;> simp_all [waitBound, tickStep, tickRule]

theorem satInc_toNat (v : Word) : (satInc v).toNat = min (v.toNat + 1) (2 ^ 32 - 1) := by
  have hv := v.isLt
  unfold satInc
  split
  · rename_i h
    subst h
    rfl
  · rename_i h
    have hne : v.toNat ≠ 2 ^ 32 - 1 := fun hc => h (BitVec.eq_of_toNat_eq hc)
    rw [BitVec.toNat_add, BitVec.toNat_ofNat]
    omega

/-! ### Host access -/

/-- A window read changes nothing but the value returned. -/
theorem windowRead_frame (k : Nat) : ∃ v, windowRead k s = returnWord v s := by
  unfold windowRead
  split <;> exact ⟨_, rfl⟩

/-- An ELEM_DATA read changes nothing but the value returned and ELEM_ERR. -/
theorem elemDataRead_frame : ∃ v, elemDataRead s = returnWord v s ∨ elemDataRead s = returnWord v (elemError s) := by
  unfold elemDataRead
  split
  · exact ⟨_, .inl rfl⟩
  · exact ⟨_, .inr rfl⟩

/-- A host read changes nothing but the value returned and ELEM_ERR (R80). -/
theorem hostRead_frame (off : Nat) :
    ∃ v, hostRead off s = returnWord v s ∨ hostRead off s = returnWord v (elemError s) := by
  unfold hostRead
  split
  · obtain ⟨v, h⟩ := windowRead_frame s _
    exact ⟨v, .inl h⟩
  · split
    · unfold regLoad
      split
      · exact elemDataRead_frame s
      · exact ⟨_, .inl rfl⟩
    · exact ⟨_, .inl rfl⟩

theorem regAt_regOffset (p : Params) (hp : p.wf) (r : Reg) : regAt p (regOffset r) = some r := by
  have hlt : regOffset r < 0x1000 := by cases r <;> decide
  have hw : 0x1000 ≤ 2 ^ p.hostAddrW := by
    have := hp.2.2.2.2
    simp only [Config.windowBase] at this
    omega
  rw [regAt, if_pos (by omega)]
  cases r <;> decide

end Sys2Proof.Machine
end

