-- ==== Sys2Proof/Laws/PerInstr.lean ====
section
/-!
SUPPORT. The per-instruction family `EncodedLength`: an instruction's table word has a length of its kind, four bytes
for a CMD value, at least four for a read and eight for a write, one for a byte of the link (spec/30_encoding.md R104,
R106, R110, R113).
-/

namespace Sys2Proof.Laws.EncodedLength

/-- The lengths a table word of each kind may have. -/
def lengthFits (n : Nat) : Format → Bool
  | .cmd => n == 4
  | .hostWrite => decide (8 ≤ n)
  | .hostRead => decide (4 ≤ n)
  | .wireOut | .wireIn | .fmtByte => n == 1

/-- The instruction's word has a length of its kind. -/
def Statement (i : Instr) : Prop := lengthFits (encode i).bytes.length (encode i).format = true

theorem write_length (off : Nat) (v : Word) : lengthFits (writeWord off v).bytes.length .hostWrite = true := by
  simp [lengthFits, writeWord, offsetBytes, bytesOfWord]

theorem read_length (off : Nat) : lengthFits (readWord off).bytes.length .hostRead = true := by
  simp [lengthFits, readWord, offsetBytes, bytesOfWord]

theorem nop (hi : BitVec 24) : Statement (.nop hi) := rfl
theorem sendData (hi : BitVec 24) : Statement (.sendData hi) := rfl
theorem recvData (hi : BitVec 24) : Statement (.recvData hi) := rfl
theorem sendToken (hi : BitVec 24) : Statement (.sendToken hi) := rfl
theorem crcInit (hi : BitVec 24) : Statement (.crcInit hi) := rfl
theorem reserved05 (hi : BitVec 24) : Statement (.reserved05 hi) := rfl
theorem reserved06 (low : BitVec 1) (hi : BitVec 24) : Statement (.reserved06 low hi) := rfl
theorem reserved08 (low : BitVec 3) (hi : BitVec 24) : Statement (.reserved08 low hi) := rfl
theorem reserved10 (low : BitVec 4) (hi : BitVec 24) : Statement (.reserved10 low hi) := rfl
theorem reserved20 (low : BitVec 5) (hi : BitVec 24) : Statement (.reserved20 low hi) := rfl
theorem reserved40 (low : BitVec 6) (hi : BitVec 24) : Statement (.reserved40 low hi) := rfl
theorem reserved80 (low : BitVec 7) (hi : BitVec 24) : Statement (.reserved80 low hi) := rfl
theorem cancel (clr : Bool) (hi : BitVec 30) : Statement (.cancel clr hi) := write_length _ _
theorem clear (hi : BitVec 30) : Statement (.clear hi) := write_length _ _
theorem crcFeed (v : Word) : Statement (.crcFeed v) := write_length _ _
theorem elemRead : Statement .elemRead := read_length _
theorem elemWrite (v : Word) : Statement (.elemWrite v) := write_length _ _
theorem winRead (k : Nat) : Statement (.winRead k) := read_length _
theorem winWrite (k : Nat) (v : Word) : Statement (.winWrite k v) := write_length _ v
theorem regRead (off : Nat) : Statement (.regRead off) := read_length off
theorem regWrite (off : Nat) (v : Word) : Statement (.regWrite off v) := write_length off v
theorem syncOut : Statement .syncOut := rfl
theorem syncIn : Statement .syncIn := rfl
theorem readyOut : Statement .readyOut := rfl
theorem readyIn : Statement .readyIn := rfl
theorem ackOut : Statement .ackOut := rfl
theorem ackIn : Statement .ackIn := rfl
theorem fmtUint8 (flags : BitVec 2) : Statement (.fmtUint8 flags) := rfl
theorem fmtInt8 (flags : BitVec 2) : Statement (.fmtInt8 flags) := rfl
theorem fmtUint16 (flags : BitVec 2) : Statement (.fmtUint16 flags) := rfl
theorem fmtInt16 (flags : BitVec 2) : Statement (.fmtInt16 flags) := rfl
theorem fmtUint32 (flags : BitVec 2) : Statement (.fmtUint32 flags) := rfl
theorem fmtInt32 (flags : BitVec 2) : Statement (.fmtInt32 flags) := rfl

end Sys2Proof.Laws.EncodedLength
end

