-- ==== Sys2Proof/Laws/Step.lean ====
section
/-!
SUPPORT. What a meaning can do and what a fetch can find, once: a proof about every step splits these cases and
never unfolds `exec`, `fetch` or `decode`.
-/

namespace Sys2Proof.Machine

/-- Everything an instruction can do. -/
theorem exec_cases (i : Instr) (s : State) : ∃ t, exec i s = .next t ∧
    (t = s ∨ t = rejectCommand s ∨ t = acceptCommand startSendData s ∨ t = acceptCommand startRecvData s ∨
      t = acceptCommand startSendToken s ∨ t = acceptCommand initAcc s ∨
      (∃ cancel clear, t = ctrlWrite cancel clear s) ∨ (∃ v, t = crcFeedWrite v s) ∨ t = elemDataRead s ∨
      (∃ v, t = elemDataWrite v s) ∨ (∃ k, t = windowRead k s) ∨ (∃ k v, t = windowWrite k v s) ∨
      (∃ off, t = hostRead off s) ∨ (∃ off v, t = hostWrite off v s) ∨
      (∃ b, t = takeByte b s) ∨ (∃ b, t = offerByte b s) ∨ (∃ b, t = passFormatByte b s)) := by
  cases i
  case nop => exact ⟨_, rfl, by simp⟩
  case sendData => exact ⟨_, rfl, by simp⟩
  case recvData => exact ⟨_, rfl, by simp⟩
  case sendToken => exact ⟨_, rfl, by simp⟩
  case crcInit => exact ⟨_, rfl, by simp⟩
  case cancel clr _ => exact ⟨_, rfl, .inr (.inr (.inr (.inr (.inr (.inr (.inl ⟨_, _, rfl⟩))))))⟩
  case clear => exact ⟨_, rfl, .inr (.inr (.inr (.inr (.inr (.inr (.inl ⟨_, _, rfl⟩))))))⟩
  case crcFeed => exact ⟨_, rfl, .inr (.inr (.inr (.inr (.inr (.inr (.inr (.inl ⟨_, rfl⟩)))))))⟩
  case elemRead => exact ⟨_, rfl, by simp⟩
  case elemWrite => exact ⟨_, rfl, .inr (.inr (.inr (.inr (.inr (.inr (.inr (.inr (.inr (.inl ⟨_, rfl⟩)))))))))⟩
  case winRead =>
    exact ⟨_, rfl, .inr (.inr (.inr (.inr (.inr (.inr (.inr (.inr (.inr (.inr (.inl ⟨_, rfl⟩))))))))))⟩
  case winWrite =>
    exact ⟨_, rfl, .inr (.inr (.inr (.inr (.inr (.inr (.inr (.inr (.inr (.inr (.inr (.inl ⟨_, _, rfl⟩)))))))))))⟩
  case regRead =>
    exact ⟨_, rfl,
      .inr (.inr (.inr (.inr (.inr (.inr (.inr (.inr (.inr (.inr (.inr (.inr (.inl ⟨_, rfl⟩))))))))))))⟩
  case regWrite =>
    exact ⟨_, rfl,
      .inr (.inr (.inr (.inr (.inr (.inr (.inr (.inr (.inr (.inr (.inr (.inr (.inr (.inl ⟨_, _, rfl⟩)))))))))))))⟩
  case syncOut | readyOut | ackOut =>
    exact ⟨_, rfl,
      .inr (.inr (.inr (.inr (.inr (.inr (.inr (.inr (.inr (.inr (.inr (.inr (.inr (.inr (.inl ⟨_, rfl⟩))))))))))))))⟩
  case syncIn | readyIn | ackIn =>
    exact ⟨_, rfl,
      .inr (.inr (.inr (.inr (.inr (.inr (.inr (.inr (.inr (.inr (.inr (.inr (.inr (.inr (.inr
        (.inl ⟨_, rfl⟩)))))))))))))))⟩
  case fmtUint8 | fmtInt8 | fmtUint16 | fmtInt16 | fmtUint32 | fmtInt32 =>
    exact ⟨_, rfl,
      .inr (.inr (.inr (.inr (.inr (.inr (.inr (.inr (.inr (.inr (.inr (.inr (.inr (.inr (.inr
        (.inr ⟨_, rfl⟩)))))))))))))))⟩
  all_goals exact ⟨_, rfl, by simp⟩

/-! ### Bytes: every byte that passes is one offered or one taken byte, whichever row names it -/

theorem decodeFormatByte_cases : ∀ b : Byte,
    (decodeFormatByte b = .instr (.fmtUint8 (b.extractLsb' 4 2)) ∧ formatByte (b.extractLsb' 4 2) 0#4 = b) ∨
    (decodeFormatByte b = .instr (.fmtInt8 (b.extractLsb' 4 2)) ∧ formatByte (b.extractLsb' 4 2) 1#4 = b) ∨
    (decodeFormatByte b = .instr (.fmtUint16 (b.extractLsb' 4 2)) ∧ formatByte (b.extractLsb' 4 2) 2#4 = b) ∨
    (decodeFormatByte b = .instr (.fmtInt16 (b.extractLsb' 4 2)) ∧ formatByte (b.extractLsb' 4 2) 3#4 = b) ∨
    (decodeFormatByte b = .instr (.fmtUint32 (b.extractLsb' 4 2)) ∧ formatByte (b.extractLsb' 4 2) 4#4 = b) ∨
    (decodeFormatByte b = .instr (.fmtInt32 (b.extractLsb' 4 2)) ∧ formatByte (b.extractLsb' 4 2) 5#4 = b) ∨
    decodeFormatByte b = .rejected .invalidFormat := by
  decide

theorem decodeWireIn_cases : ∀ b : Byte,
    (decodeWireIn b = .instr .syncIn ∧ b = Config.rxSync) ∨
    (decodeWireIn b = .instr .readyIn ∧ b = Config.readyByte) ∨
    (decodeWireIn b = .instr .ackIn ∧ b = Config.ackByte) ∨ decodeWireIn b = .rejected .dataByte := by
  decide

theorem decodeWireOut_cases : ∀ b : Byte,
    (decodeWireOut b = .instr .syncOut ∧ b = Config.txSync) ∨
    (decodeWireOut b = .instr .readyOut ∧ b = Config.readyByte) ∨
    (decodeWireOut b = .instr .ackOut ∧ b = Config.ackByte) ∨ decodeWireOut b = .rejected .dataByte := by
  decide

/-- What becomes of a fetch: the instruction runs, or the event's outcome stands. -/
def outcomeOf : Fetched → Host.Outcome State Fault Refusal
  | .instr i s => exec i s
  | .event o => o

theorem step_eq_outcomeOf (s : State) : step s = outcomeOf (fetch s) := by
  unfold step outcomeOf
  cases fetch s <;> rfl

/-- A format byte's fetch passes that byte. -/
theorem outcome_formatByte (b : Byte) (data : State → State) (u : State) (h : data u = passFormatByte b u) :
    outcomeOf (fetchWord ⟨.fmtByte, [b]⟩ data u) = .next (passFormatByte b u) := by
  have key := decodeFormatByte_cases b
  rcases key with ⟨hd, hb⟩ | ⟨hd, hb⟩ | ⟨hd, hb⟩ | ⟨hd, hb⟩ | ⟨hd, hb⟩ | ⟨hd, hb⟩ | hd
  case inr.inr.inr.inr.inr.inr => simp only [fetchWord, decode, hd, outcomeOf, h]
  all_goals
    simp only [fetchWord, decode, hd, outcomeOf, exec, execFmtUint8, execFmtInt8, execFmtUint16, execFmtInt16,
      execFmtUint32, execFmtInt32, hb]

/-- A byte the transport offers: its fetch is that offer. -/
theorem outcome_offer (s u : State) (b : Byte) (hst : u.st = s.st) :
    outcomeOf (fetchWord (inWord s b) (offerByte b) u) = .next (offerByte b u) := by
  by_cases hf : s.st = .rxHdr ∧ s.idx = 0#5
  · have hp : passFormatByte b u = offerByte b u := if_neg (by rw [hst, hf.1]; decide)
    rw [inWord, if_pos hf, outcome_formatByte _ _ _ hp.symm, hp]
  · rw [inWord, if_neg hf]
    rcases decodeWireIn_cases b with ⟨hd, hb⟩ | ⟨hd, hb⟩ | ⟨hd, hb⟩ | hd
    case inr.inr.inr => simp only [fetchWord, decode, hd, outcomeOf]
    all_goals subst hb; simp only [fetchWord, decode, hd, outcomeOf, exec, execSyncIn, execReadyIn, execAckIn]

/-- A byte the transport takes: its fetch is that taking. -/
theorem outcome_take (s u : State) (b : Byte) (hst : u.st = s.st) :
    outcomeOf (fetchWord (outWord s b) (takeByte b) u) = .next (takeByte b u) := by
  by_cases hf : s.st = .txHdr ∧ s.idx = 1#5
  · have hp : passFormatByte b u = takeByte b u := if_pos (by rw [hst, hf.1])
    rw [outWord, if_pos hf, outcome_formatByte _ _ _ hp.symm, hp]
  · rw [outWord, if_neg hf]
    rcases decodeWireOut_cases b with ⟨hd, hb⟩ | ⟨hd, hb⟩ | ⟨hd, hb⟩ | hd
    case inr.inr.inr => simp only [fetchWord, decode, hd, outcomeOf]
    all_goals subst hb; simp only [fetchWord, decode, hd, outcomeOf, exec, execSyncOut, execReadyOut, execAckOut]

/-! ### The step, by the event at the head of the schedule -/

theorem decode_writeWord (p : Params) (off : Nat) (v : Word) :
    decode p (writeWord off v) = .instr (decodeHostWrite p off v) := by
  simp [decode, writeWord]

theorem decode_readWord (p : Params) (off : Nat) : decode p (readWord off) = .instr (decodeHostRead p off) := by
  simp [decode, readWord]

theorem step_hostWrite {s : State} {off : Nat} {v : Word} {rest : List Event} (h : s.script = .hostWrite .w32 off v :: rest) :
    step s = exec (decodeHostWrite s.params off v) (passed rest s) := by
  simp [step_eq_outcomeOf, fetch, h, fetchEvent, fetchAccess, fetchWord, decode_writeWord, outcomeOf, passed]

theorem step_hostRead {s : State} {off : Nat} {rest : List Event} (h : s.script = .hostRead .w32 off :: rest) :
    step s = exec (decodeHostRead s.params off) (passed rest s) := by
  simp [step_eq_outcomeOf, fetch, h, fetchEvent, fetchAccess, fetchWord, decode_readWord, outcomeOf, passed]

theorem step_rx_none {s : State} {rest : List Event} (h : s.script = .rx :: rest) (hh : s.link.held = []) :
    step s = .next (passed rest s) := by
  simp [step_eq_outcomeOf, fetch, h, fetchEvent, hh, outcomeOf, passed]

theorem step_rx {s : State} {b : Byte} {more : List Byte} {rest : List Event} (h : s.script = .rx :: rest)
    (hh : s.link.held = b :: more) : step s = .next (offerByte b (handedOver more rest s)) := by
  rw [step_eq_outcomeOf]
  simp only [fetch, h, fetchEvent, hh]
  exact outcome_offer _ _ _ rfl

theorem step_tx_none {s : State} {rest : List Event} (h : s.script = .tx :: rest) (hd : txData s = none) :
    step s = .next (passed rest s) := by
  have hd' : txData { s with script := rest } = none := hd
  simp [step_eq_outcomeOf, fetch, h, fetchEvent, hd', outcomeOf, passed]

theorem step_tx {s : State} {b : Byte} {rest : List Event} (h : s.script = .tx :: rest) (hd : txData s = some b) :
    step s = .next (takeByte b (passed rest s)) := by
  have hd' : txData { s with script := rest } = some b := hd
  rw [step_eq_outcomeOf]
  simp only [fetch, h, fetchEvent, hd']
  exact outcome_take _ _ _ rfl

/-- Everything a step can do, where it has a next state. -/
theorem step_cases {s t : State} (h : step s = .next t) :
    (s.script = [] ∧ t = internalStep s) ∨
    (∃ off v rest, s.script = .hostWrite .w32 off v :: rest ∧
      exec (decodeHostWrite s.params off v) (passed rest s) = .next t) ∨
    (∃ off rest, s.script = .hostRead .w32 off :: rest ∧
      exec (decodeHostRead s.params off) (passed rest s) = .next t) ∨
    (∃ rest, s.script = .rx :: rest ∧ s.link.held = [] ∧ t = passed rest s) ∨
    (∃ b more rest, s.script = .rx :: rest ∧ s.link.held = b :: more ∧ t = offerByte b (handedOver more rest s)) ∨
    (∃ rest, s.script = .tx :: rest ∧ txData s = none ∧ t = passed rest s) ∨
    (∃ b rest, s.script = .tx :: rest ∧ txData s = some b ∧ t = takeByte b (passed rest s)) ∨
    (∃ rest, s.script = .drain :: rest ∧ t = drainStep (passed rest s)) ∨
    (∃ rest, s.script = .tick :: rest ∧ t = tickStep (passed rest s)) ∨
    (∃ rest, s.script = .internal :: rest ∧ t = internalStep (passed rest s)) ∨
    (∃ rest, s.script = .reset :: rest ∧ t = resetStep (passed rest s)) ∨
    (∃ rest, s.script = .powerOn :: rest ∧ t = powerOnStep (passed rest s)) ∨
    (∃ b rest, s.script = .peerByte b :: rest ∧
      t = { passed rest s with link := { s.link with held := s.link.held ++ [b] } }) ∨
    (∃ isOpen rest, s.script = .linkLevel isOpen :: rest ∧
      t = { passed rest s with link := { s.link with linkOpen := isOpen } }) := by
  have inj : ∀ {x : State}, Host.Outcome.next (φ := Fault) (ρ := Refusal) x = .next t → t = x :=
    fun hx => (Host.Outcome.next.inj hx).symm
  cases hs : s.script with
  | nil =>
    refine .inl ⟨rfl, inj ?_⟩
    rw [← h, step_eq_outcomeOf]
    simp only [fetch, hs, outcomeOf]
  | cons e rest =>
    cases e with
    | hostWrite w off v =>
      by_cases hw : w = .w32
      · subst hw
        exact .inr (.inl ⟨off, v, rest, rfl, by rw [← h, step_hostWrite hs]⟩)
      · simp [step_eq_outcomeOf, fetch, hs, fetchEvent, fetchAccess, hw, outcomeOf] at h
    | hostRead w off =>
      by_cases hw : w = .w32
      · subst hw
        exact .inr (.inr (.inl ⟨off, rest, rfl, by rw [← h, step_hostRead hs]⟩))
      · simp [step_eq_outcomeOf, fetch, hs, fetchEvent, fetchAccess, hw, outcomeOf] at h
    | rx =>
      cases hh : s.link.held with
      | nil => exact .inr (.inr (.inr (.inl ⟨rest, rfl, rfl, inj (by rw [← h, step_rx_none hs hh])⟩)))
      | cons b more =>
        exact .inr (.inr (.inr (.inr (.inl ⟨b, more, rest, rfl, rfl, inj (by rw [← h, step_rx hs hh])⟩))))
    | tx =>
      cases hd : txData s with
      | none => exact .inr (.inr (.inr (.inr (.inr (.inl ⟨rest, rfl, rfl, inj (by rw [← h, step_tx_none hs hd])⟩)))))
      | some b =>
        exact .inr (.inr (.inr (.inr (.inr (.inr (.inl
          ⟨b, rest, rfl, rfl, inj (by rw [← h, step_tx hs hd])⟩))))))
    | _ =>
      simp only [step_eq_outcomeOf, fetch, hs, fetchEvent, outcomeOf] at h
      have ht := inj h
      subst ht
      simp [passed]

end Sys2Proof.Machine
end

