-- ==== Sys2Proof/Tests/Slice0.lean ====
section
/-!
SUPPORT. Tests: ill-formed terms refused, one word of every row decoded, single steps with the values of
spec/95_test_vectors.md, and for every statement with hypotheses a state that meets them.
-/

open Sys2Proof Sys2Proof.Machine

namespace Sys2Proof.Tests

/-! ### WellFormed: each check refuses an ill-formed term -/

theorem test_wf_winRead : wellFormed Params.default (.winRead 1023) = true ∧
    wellFormed Params.default (.winRead 1024) = false := by decide

theorem test_wf_winWrite : wellFormed Params.default (.winWrite 1023 0#32) = true ∧
    wellFormed Params.default (.winWrite 1024 0#32) = false := by decide

theorem test_wf_regRead_elemData : wellFormed Params.default (.regRead 0x074) = false := by decide

theorem test_wf_regRead_window : wellFormed Params.default (.regRead 0x1FFC) = false ∧
    wellFormed Params.default (.regRead 0x2000) = true ∧
    wellFormed Params.default (.regRead 0x1002) = true := by decide

theorem test_wf_regWrite_cmd : wellFormed Params.default (.regWrite 0x004 1#32) = false := by decide

theorem test_wf_regWrite_crcFeed : wellFormed Params.default (.regWrite 0x038 1#32) = false := by decide

theorem test_wf_regWrite_elemData : wellFormed Params.default (.regWrite 0x074 1#32) = false := by decide

theorem test_wf_regWrite_window : wellFormed Params.default (.regWrite 0x1000 1#32) = false := by decide

theorem test_wf_regWrite_cancel : wellFormed Params.default (.regWrite 0x000 1#32) = false := by decide

theorem test_wf_regWrite_clear : wellFormed Params.default (.regWrite 0x000 2#32) = false ∧
    wellFormed Params.default (.regWrite 0x000 4#32) = true := by decide

/-! ### Decoding: one word of every row, its bytes written out from the row's encoding -/

/-- Bytes read as a word of a kind, under the default parameters. -/
def read (format : Format) (bytes : List Byte) : Decoded := decode Params.default ⟨format, bytes⟩

theorem test_decode_nop : read .cmd [0x00#8, 0xCC#8, 0xBB#8, 0xAA#8] = .instr (.nop 0xAABBCC#24) := by decide
theorem test_decode_sendData : read .cmd [0x01#8, 0x01#8, 0#8, 0#8] = .instr (.sendData 1#24) := by decide
theorem test_decode_recvData : read .cmd [0x02#8, 0#8, 0#8, 0#8] = .instr (.recvData 0#24) := by decide
theorem test_decode_sendToken : read .cmd [0x03#8, 0#8, 0#8, 0x80#8] = .instr (.sendToken 0x800000#24) := by decide
theorem test_decode_crcInit : read .cmd [0x04#8, 0#8, 0#8, 0#8] = .instr (.crcInit 0#24) := by decide
theorem test_decode_reserved05 : read .cmd [0x05#8, 0#8, 0#8, 0#8] = .instr (.reserved05 0#24) := by decide
theorem test_decode_reserved06 : read .cmd [0x07#8, 0#8, 0#8, 0#8] = .instr (.reserved06 1#1 0#24) := by decide
theorem test_decode_reserved08 : read .cmd [0x0D#8, 0#8, 0#8, 0#8] = .instr (.reserved08 5#3 0#24) := by decide
theorem test_decode_reserved10 : read .cmd [0x1A#8, 0#8, 0#8, 0#8] = .instr (.reserved10 0xA#4 0#24) := by decide
theorem test_decode_reserved20 : read .cmd [0x3E#8, 0#8, 0#8, 0#8] = .instr (.reserved20 0x1E#5 0#24) := by decide
theorem test_decode_reserved40 : read .cmd [0x61#8, 0#8, 0#8, 0#8] = .instr (.reserved40 0x21#6 0#24) := by decide
theorem test_decode_reserved80 : read .cmd [0xFF#8, 0#8, 0#8, 0#8] = .instr (.reserved80 0x7F#7 0#24) := by decide

theorem test_decode_cancel : read .hostWrite [0#8, 0#8, 0#8, 0#8, 0x01#8, 0#8, 0#8, 0#8] = .instr (.cancel false 0#30) := by
  decide
theorem test_decode_cancel_clear :
    read .hostWrite [0#8, 0#8, 0#8, 0#8, 0x07#8, 0#8, 0#8, 0#8] = .instr (.cancel true 1#30) := by decide
theorem test_decode_clear : read .hostWrite [0#8, 0#8, 0#8, 0#8, 0x02#8, 0#8, 0#8, 0#8] = .instr (.clear 0#30) := by
  decide
theorem test_decode_crcFeed : read .hostWrite [0x38#8, 0#8, 0#8, 0#8, 0xFF#8, 0x01#8, 0#8, 0#8] =
    .instr (.crcFeed 0x1FF#32) := by decide
theorem test_decode_elemRead : read .hostRead [0x74#8, 0#8, 0#8, 0#8] = .instr .elemRead := by decide
theorem test_decode_elemWrite : read .hostWrite [0x74#8, 0#8, 0#8, 0#8, 0x78#8, 0x56#8, 0x34#8, 0x12#8] =
    .instr (.elemWrite 0x12345678#32) := by decide
theorem test_decode_winRead : read .hostRead [0x04#8, 0x10#8, 0#8, 0#8] = .instr (.winRead 1) := by decide
theorem test_decode_winWrite : read .hostWrite [0xFC#8, 0x1F#8, 0#8, 0#8, 0x44#8, 0x33#8, 0x22#8, 0x11#8] =
    .instr (.winWrite 1023 0x11223344#32) := by decide
theorem test_decode_regRead : read .hostRead [0x08#8, 0#8, 0#8, 0#8] = .instr (.regRead 0x008) := by decide
theorem test_decode_regWrite : read .hostWrite [0x0C#8, 0#8, 0#8, 0#8, 0x03#8, 0#8, 0#8, 0#8] =
    .instr (.regWrite 0x00C 3#32) := by decide

/-- An offset of 2^32 or above takes more than four bytes (R9, R78; assumption log 4). -/
theorem test_decode_wide_offset : read .hostRead [0x08#8, 0#8, 0#8, 0#8, 1#8] = .instr (.regRead 0x100000008) ∧
    encode (.regRead 0x100000008) = ⟨.hostRead, [0x08#8, 0#8, 0#8, 0#8, 1#8]⟩ := by decide

/-- A write to CMD as a host access is the command (R41, R113). -/
theorem test_decode_cmd_write : read .hostWrite [0x04#8, 0#8, 0#8, 0#8, 0x02#8, 0#8, 0#8, 0#8] =
    .instr (.recvData 0#24) := by decide

theorem test_decode_syncOut : read .wireOut [0x3C#8] = .instr .syncOut := by decide
theorem test_decode_syncIn : read .wireIn [0x3E#8] = .instr .syncIn := by decide
theorem test_decode_readyOut : read .wireOut [0x61#8] = .instr .readyOut := by decide
theorem test_decode_readyIn : read .wireIn [0x61#8] = .instr .readyIn := by decide
theorem test_decode_ackOut : read .wireOut [0x5E#8] = .instr .ackOut := by decide
theorem test_decode_ackIn : read .wireIn [0x5E#8] = .instr .ackIn := by decide
theorem test_decode_fmtUint8 : read .fmtByte [0x10#8] = .instr (.fmtUint8 1#2) := by decide
theorem test_decode_fmtInt8 : read .fmtByte [0x01#8] = .instr (.fmtInt8 0#2) := by decide
theorem test_decode_fmtUint16 : read .fmtByte [0x22#8] = .instr (.fmtUint16 2#2) := by decide
theorem test_decode_fmtInt16 : read .fmtByte [0x03#8] = .instr (.fmtInt16 0#2) := by decide
theorem test_decode_fmtUint32 : read .fmtByte [0x34#8] = .instr (.fmtUint32 3#2) := by decide
theorem test_decode_fmtInt32 : read .fmtByte [0x25#8] = .instr (.fmtInt32 2#2) := by decide

/-- Vector set V3: masked codes above 5, the code of a marker (0x3E) among them. -/
theorem test_decode_invalidFormat :
    [0x06#8, 0x0F#8, 0x36#8, 0x3E#8, 0x45#8, 0x85#8, 0xF5#8].all (fun b => read .fmtByte [b] == .rejected .invalidFormat) =
      true := by decide

theorem test_decode_dataByte : read .wireIn [0x3C#8] = .rejected .dataByte ∧
    read .wireOut [0x3E#8] = .rejected .dataByte := by decide

theorem test_decode_wrongLength : read .cmd [0x01#8] = .rejected .wrongLength := by decide

/-! ### Single steps, with the values of spec/95_test_vectors.md -/

/-- What a step's next state shows, if it has one. -/
def seen {α : Type} (f : State → α) : Host.Outcome State Fault Refusal → Option α
  | .next s => some (f s)
  | .fault _ => none
  | .refused _ => none

/-- The reset state, standing in another state of the sequencer. -/
def at' (x : St) : State := { State.reset with st := x }

/-- The reset state with link_open = 0. -/
def unlinked : State := { State.reset with link := { State.reset.link with linkOpen := false } }

/-- The reset state with a send's registers set. -/
def sendReady (fmt : Byte) (count : Word) : State :=
  { State.reset with settings := { State.reset.settings with txFmt := fmt, txCount := count } }

/-- The reset state with the element registers set. -/
def elem (fmt : Byte) (idx : Word) : State := { State.reset with elemFmt := fmt, elemIdx := idx }

/-- STATUS at reset: idle, LINK = 1. -/
theorem test_status_reset : statusWord State.reset = 0x00000080#32 := by decide

theorem test_sendData_status : seen statusWord (exec (.sendData 0#24) (sendReady 3#8 6#32)) = some 0x00010081#32 := by
  decide
theorem test_sendData_length : seen State.len34 (exec (.sendData 0#24) (sendReady 3#8 6#32)) = some 12#34 := by decide
/-- Vector set V9: the link is checked before the format. -/
theorem test_sendData_link : seen statusWord (exec (.sendData 0#24)
    { unlinked with settings := { unlinked.settings with txFmt := 6#8 } }) = some 0x00000104#32 := by decide
/-- Vector set V4: 1025 elements of four bytes. -/
theorem test_sendData_capacity : seen (fun s => (statusWord s, s.len34)) (exec (.sendData 0#24) (sendReady 4#8 1025#32)) =
    some (0x00000684#32, 0x1004#34) := by decide
theorem test_recvData_link : seen statusWord (exec (.recvData 0#24) unlinked) = some 0x00000104#32 := by decide
theorem test_recvData_status : seen statusWord (exec (.recvData 0#24) State.reset) = some 0x00080081#32 := by decide
/-- Program P5: a token of two bytes. -/
theorem test_sendToken_status : seen statusWord (exec (.sendToken 0#24)
    { State.reset with settings := { State.reset.settings with tokenLen := 2#5 } }) = some 0x000F0081#32 := by decide
theorem test_sendToken_empty : seen statusWord (exec (.sendToken 0#24) State.reset) = some 0x00100081#32 := by decide
theorem test_reserved05_status : seen statusWord (exec (.reserved05 0#24) State.reset) = some 0x00000088#32 := by decide
theorem test_busy_command : seen statusWord (exec (.sendData 0#24) (at' .rxWaitSync)) = some 0x00080089#32 := by decide
/-- Vector set V9: CANCEL with CLEAR leaves the abort's record. -/
theorem test_cancel_clear : seen statusWord (exec (.cancel true 0#30) (at' .rxHdr)) = some 0x00000784#32 := by decide
theorem test_cancel_idle : seen statusWord (exec (.cancel false 0#30) State.reset) = some 0x00000080#32 := by decide
/-- Program P7. -/
theorem test_crcFeed : seen State.acc (exec (.crcFeed 0x000000FE#32) State.reset) = some 0x1332#16 := by decide
theorem test_crcFeed_low_byte : seen State.acc (exec (.crcFeed 0x1FF#32) { State.reset with acc := 0x1332#16 }) =
    some 0x1431#16 := by decide
/-- Vector set V1: the wrap. -/
theorem test_sum_wrap : sumUpdate 0xFFFF#16 0xFF#8 = 0x00FE#16 := by decide
/-- R178, R179: the last int16 of PBUF, and one past it. -/
theorem test_elemRead_signed : seen State.readData (exec .elemRead
    { elem 3#8 2047#32 with pbuf := [(4094, 0x00#8), (4095, 0x80#8)] }) = some 0xFFFF8000#32 := by decide
theorem test_elemRead_range : seen (fun s => (s.readData, statusWord s)) (exec .elemRead (elem 3#8 2048#32)) =
    some (0#32, 0x000000A0#32) := by decide
theorem test_elemWrite_truncates : seen State.pbuf (exec (.elemWrite 0x12345678#32) (elem 3#8 1#32)) =
    some [(2, 0x78#8), (3, 0x56#8)] := by decide
theorem test_winWrite_order : seen State.pbuf (exec (.winWrite 1 0x00010000#32) State.reset) =
    some [(4, 0#8), (5, 0#8), (6, 1#8), (7, 0#8)] := by decide
theorem test_winRead_order : seen State.readData (exec (.winRead 0)
    { State.reset with pbuf := [(0, 4#8), (1, 3#8), (2, 2#8), (3, 1#8)] }) = some 0x01020304#32 := by decide
theorem test_regRead_pbufSize : seen State.readData (exec (.regRead 0x078) State.reset) = some 0x00001000#32 :=
  by decide
/-- R78: the low bits of an offset beyond the map do not alias a register, here PBUF_SIZE, in a space 40 bits wide. -/
theorem test_regRead_wide_offset : seen State.readData (exec (.regRead 0x100000078)
    { State.reset with params := { Params.default with hostAddrW := 40 } }) = some 0#32 := by decide
/-- Vector set V7: TOKEN_LEN. -/
theorem test_regWrite_tokenLen : seen (fun s => s.settings.tokenLen) (exec (.regWrite 0x058 31#32) State.reset) =
    some 16#5 := by decide
theorem test_regWrite_tokenLen_low : seen (fun s => s.settings.tokenLen) (exec (.regWrite 0x058 0x25#32) State.reset) =
    some 5#5 := by decide
/-- Vector set V9: a locked write while a receive runs. -/
theorem test_regWrite_locked : seen (fun s => (statusWord s, s.settings.txTag))
    (exec (.regWrite 0x010 5#32) (at' .rxWaitSync)) = some (0x00080091#32, 0#8) := by decide
theorem test_syncIn : seen State.st (exec .syncIn (at' .rxWaitSync)) = some .rxHdr := by decide
theorem test_syncOut : seen (fun s => (s.idx, s.link.wire)) (exec .syncOut (at' .txHdr)) = some (1#5, [0x3C#8]) :=
  by decide
/-- Vector set V8: a second 0x3E inside the header is data. -/
theorem test_syncIn_as_data : seen (fun s => (s.st, s.hdr[0])) (exec .syncIn (at' .rxHdr)) = some (.rxHdr, 0x3E#8) := by
  decide
/-- Program P5: a byte other than 0x61 is discarded in TOK_WAIT. -/
theorem test_ackIn_stray : seen statusWord (exec .ackIn (at' .tokWait)) = some 0x00100081#32 := by decide
theorem test_ackIn_done : seen statusWord (exec .ackIn (at' .txWaitAck)) = some 0x00000082#32 := by decide
/-- Example E2: the header 34 07 01 00 00 00. -/
theorem test_header_e2 : inHdr #v[0x34#8, 0x07#8, 1#8, 0#8, 0#8, 0#8] =
    { raw := 0x34#8, code := 4#8, tag := 7#8, count := 1#32 } := by decide
/-- Vector set V2: TX_FMT 5, TX_TAG 0x80, TX_COUNT 0x12345678. -/
theorem test_outHdr : outHdr 5#8 0x80#8 0x12345678#32 = [0x3C#8, 5#8, 0x80#8, 0x78#8, 0x56#8, 0x34#8, 0x12#8] :=
  by decide
/-- Program P6: the tick that reaches READY_DL = 3. -/
theorem test_deadline : seen (fun s => (statusWord s, s.timer)) (step
    { at' .txWaitReady with
      timer := 2#32, script := [.tick], settings := { State.reset.settings with readyDl := 3#32 } }) =
    some (0x00003384#32, 3#32) := by decide
/-- Program P3: the mismatch 0x1334 against 0x1333. -/
theorem test_validate : seen statusWord (step
    { at' .rxValidate with acc := 0x1333#16, crcRx := 0x1334#16, script := [.internal] }) = some 0x00000484#32 :=
  by decide
/-- R77: a byte access has no meaning. -/
theorem test_access_width : step { State.reset with script := [.hostRead .w8 0x008] } =
    .refused (.hostAccessWidth .w8) := rfl

/-! ### The host's questions: a placed word is the next step's instruction -/

theorem test_fetch_command : seen statusWord (step (State.reset.withFetchWord 8 0x05)) = some 0x00000088#32 := by decide

theorem test_fetch_syncOut : seen (fun s => s.link.wire) (step (State.reset.withFetchWord 8 0x3C)) = some [0x3C#8] := by
  decide

theorem test_fetch_ackIn : seen statusWord (step (State.reset.withFetchWord 8 0x5E)) = some 0x00000082#32 := by decide

/-! ### The statements' hypotheses are met: one witness for each statement that has some -/

/-- The reset state with a schedule. -/
def sched (x : St) (es : List Event) : State := { at' x with script := es }

/-- The same, the transport holding a byte. -/
def holding (x : St) (b : Byte) : State := { at' x with script := [.rx], link := { State.reset.link with held := [b] } }

/-- A send of 4096 payload bytes standing at its first, a tick to come. -/
def sending : State :=
  { sendReady 2#8 2048#32 with st := .txPayload, len34 := 4096#34, script := [.tick] }

/-- A receive of two payload bytes standing at its first, a tick to come. -/
def receiving : State := { at' .rxPayload with len34 := 2#34, rxCount := 2#32, script := [.tick] }

theorem witness_sendDataEntersHeader :
    (sendReady 2#8 2048#32).st = .idle ∧ (sendReady 2#8 2048#32).link.linkOpen = true ∧
      specWidth (sendReady 2#8 2048#32).settings.txFmt = some 2 ∧
      (sendReady 2#8 2048#32).settings.txCount.toNat * 2 ≤ (sendReady 2#8 2048#32).params.pbufBytes := by decide

theorem witness_sendDataStartAborts :
    (unlinked.st = .idle ∧ unlinked.link.linkOpen = false) ∧
    ((sendReady 6#8 0#32).st = .idle ∧ (sendReady 6#8 0#32).link.linkOpen = true ∧
      specWidth (sendReady 6#8 0#32).settings.txFmt = none) ∧
    ((sendReady 2#8 2049#32).st = .idle ∧ (sendReady 2#8 2049#32).link.linkOpen = true ∧
      specWidth (sendReady 2#8 2049#32).settings.txFmt = some 2 ∧
      (sendReady 2#8 2049#32).params.pbufBytes < (sendReady 2#8 2049#32).settings.txCount.toNat * 2) := by decide

theorem witness_recvDataEntersSync :
    (State.reset.st = .idle ∧ State.reset.link.linkOpen = true) ∧
    (unlinked.st = .idle ∧ unlinked.link.linkOpen = false) := by decide

theorem witness_sendTokenEnters :
    (State.reset.st = .idle ∧ State.reset.link.linkOpen = true) ∧
    (unlinked.st = .idle ∧ unlinked.link.linkOpen = false) := by decide

theorem witness_crcInitSeeds : State.reset.st = .idle ∧ (at' .txHdr).st ≠ .idle := by decide

theorem witness_busyCommandsRejected : (at' .tokWait).st ≠ .idle ∧
    Instr.crcInit 0#24 ∈ [Instr.sendData 0#24, Instr.recvData 0#24, Instr.sendToken 0#24, Instr.crcInit 0#24] :=
  by decide

theorem witness_reservedCommandsRejected : Instr.reserved80 0x7F#7 0#24 ∈
    [Instr.reserved05 0#24, Instr.reserved06 1#1 0#24, Instr.reserved08 7#3 0#24, Instr.reserved10 15#4 0#24,
      Instr.reserved20 31#5 0#24, Instr.reserved40 63#6 0#24, Instr.reserved80 0x7F#7 0#24] := by decide

theorem witness_cancelAndClear : (∃ unstuck cleared : Status,
    unstuck = { State.reset.status with cmdRej := false, hostConflict := false, elemErr := false } ∧
    cleared = { done := false, error := false, cmdRej := false, hostConflict := false, elemErr := false,
                crcMatch := false, errCode := .none, errWait := .none }) ∧
    State.reset.st = .idle ∧ (at' .rxHdr).st ≠ .idle := ⟨⟨_, _, rfl, rfl⟩, by decide⟩

theorem witness_crcFeedAdds : State.reset.st = .idle ∧ (at' .rxCrc).st ≠ .idle ∧ State.reset.params.wf := by decide

theorem witness_elemReadDecodes :
    (specWidth (elem 5#8 1023#32).elemFmt = some 4 ∧
      (elem 5#8 1023#32).elemIdx.toNat * 4 + 4 ≤ (elem 5#8 1023#32).params.pbufBytes ∧
      (elem 5#8 1023#32).elemFmt.toNat % 2 = 1) ∧
    (specWidth (elem 0#8 4095#32).elemFmt = some 1 ∧
      (elem 0#8 4095#32).elemIdx.toNat * 1 + 1 ≤ (elem 0#8 4095#32).params.pbufBytes ∧
      (elem 0#8 4095#32).elemFmt.toNat % 2 = 0) := by decide

theorem witness_invalidElementAccess :
    specWidth (elem 6#8 0#32).elemFmt = none ∧
    (specWidth (elem 4#8 1024#32).elemFmt = some 4 ∧
      (elem 4#8 1024#32).params.pbufBytes < (elem 4#8 1024#32).elemIdx.toNat * 4 + 4) ∧
    (elem 6#8 0#32).st = .idle ∧ (at' .txGap).st ≠ .idle := by decide

theorem witness_elemWriteStores : (elem 3#8 2047#32).st = .idle ∧ specWidth (elem 3#8 2047#32).elemFmt = some 2 ∧
    (elem 3#8 2047#32).elemIdx.toNat * 2 + 2 ≤ (elem 3#8 2047#32).params.pbufBytes := by decide

theorem witness_windowWords : 4 * 1023 + 4 ≤ State.reset.params.pbufBytes ∧ State.reset.st = .idle ∧
    (at' .txDrain).st ≠ .idle := by decide

theorem witness_elementRoundTrip :
    (elem 1#8 4095#32).st = .idle ∧ specWidth (elem 1#8 4095#32).elemFmt = some 1 ∧
      (elem 1#8 4095#32).elemIdx.toNat * 1 + 1 ≤ (elem 1#8 4095#32).params.pbufBytes ∧
      (elem 1#8 4095#32).elemFmt.toNat % 2 = 1 ∧
      -(2 ^ (8 * 1 - 1) : Int) ≤ (0xFFFFFF80#32 : Word).toInt ∧ (0xFFFFFF80#32 : Word).toInt < (2 ^ (8 * 1 - 1) : Int) := by
  decide

theorem witness_registersRead : State.reset.params.wf := by decide

theorem witness_reservedOffsets :
    0x1002 % 4 ≠ 0 ∧ (0x07C ≤ 0x07C ∧ 0x07C < 0x1000) ∧ (0x07C ≤ 0xFFC ∧ 0xFFC < 0x1000) ∧
    0x1000 + State.reset.params.pbufBytes ≤ 0x2000 ∧ 0x1000 + State.reset.params.pbufBytes ≤ 2 ^ 32 ∧
    2 ^ ({ State.reset with params := { Params.default with hostAddrW := 13 } } : State).params.hostAddrW ≤ 0x2000 := by
  decide

theorem witness_plainWritesStore : State.reset.params.wf ∧ State.reset.st = .idle := by decide

theorem witness_writesDroppedOrIgnored : State.reset.params.wf ∧ (at' .rxReady).st ≠ .idle ∧
    (4#32 : Word).getLsbD 0 = false ∧ (4#32 : Word).getLsbD 1 = false := by decide

theorem witness_syncMarkersPass : ((at' .txHdr).st = .txHdr ∧ (at' .txHdr).idx = 0#5) ∧
    (at' .rxWaitSync).st = .rxWaitSync := by decide

theorem witness_readinessBytesPass :
    (at' .rxReady).st = .rxReady ∧ ((at' .txWaitReady).st = .txWaitReady ∧ (at' .txWaitReady).len34 = 0#34) ∧
    ({ at' .txWaitReady with len34 := 1#34 } : State).len34 ≠ 0#34 ∧ (at' .tokWait).st = .tokWait := by decide

theorem witness_acknowledgmentsComplete : (at' .rxAck).st = .rxAck ∧ (at' .txWaitAck).st = .txWaitAck := by decide

theorem witness_formatBytesPass :
    (({ sendReady 5#8 1#32 with st := .txHdr, idx := 1#5 } : State).st = .txHdr ∧
      ({ sendReady 5#8 1#32 with st := .txHdr, idx := 1#5 } : State).idx = 1#5 ∧
      ({ sendReady 5#8 1#32 with st := .txHdr, idx := 1#5 } : State).settings.txFmt = 0x05#8) ∧
    ((at' .rxHdr).st = .rxHdr ∧ (at' .rxHdr).idx = 0#5) := by decide

theorem witness_strayBytesJudged :
    ((holding .txWaitReady 0x5E#8).script = [.rx] ∧ (holding .txWaitReady 0x5E#8).link.held = [0x5E#8] ∧
      (holding .txWaitReady 0x5E#8).st = .txWaitReady ∧ (0x5E#8 : Byte) ≠ 0x61#8) ∧
    ((holding .txWaitAck 0x61#8).script = [.rx] ∧ (holding .txWaitAck 0x61#8).link.held = [0x61#8] ∧
      (holding .txWaitAck 0x61#8).st = .txWaitAck ∧ (0x61#8 : Byte) ≠ 0x5E#8) ∧
    ((holding .tokWait 0#8).script = [.rx] ∧ (holding .tokWait 0#8).link.held = [0#8] ∧
      (holding .tokWait 0#8).st = .tokWait ∧ (0#8 : Byte) ≠ 0x61#8) ∧
    ((holding .rxWaitSync 0x3C#8).script = [.rx] ∧ (holding .rxWaitSync 0x3C#8).link.held = [0x3C#8] ∧
      (holding .rxWaitSync 0x3C#8).st = .rxWaitSync ∧ (0x3C#8 : Byte) ≠ 0x3E#8) := by decide

theorem witness_bytesPassOnlyWhenReady :
    ((holding .rxValidate 1#8).script = [.rx] ∧ (holding .rxValidate 1#8).st ∈ [St.idle, .txHdr, .txPayload, .txGap,
      .txDrain, .txCrc, .rxReady, .rxValidate, .rxAck, .tokSend]) ∧
    ((sched .txGap [.tx]).script = [.tx] ∧ (sched .txGap [.tx]).st ∈ [St.idle, .txWaitReady, .txGap, .txDrain, .txWaitAck,
      .rxWaitSync, .rxHdr, .rxPayload, .rxCrc, .rxValidate, .tokWait]) := by decide

theorem witness_outboundHeaderBytes :
    (sched .txHdr [.tx]).script = [.tx] ∧ (sched .txHdr [.tx]).st = .txHdr ∧
    ([0x3C#8, 0#8, 0#8, 0#8, 0#8, 0#8, 0#8] : List Byte)[(sched .txHdr [.tx]).idx.toNat]? = some 0x3C#8 ∧
    ([0x3C#8, 0#8, 0#8, 0#8, 0#8, 0#8, 0#8] : List Byte)[({ sched .txHdr [.tx] with idx := 6#5 } : State).idx.toNat]? =
      some 0#8 := by decide

theorem witness_payloadByteSent :
    ({ sending with script := [.tx] } : State).script = [.tx] ∧ sending.st = .txPayload ∧ sending.chunkCnt.toNat < 8 ∧
      sending.progress.toNat < sending.len34.toNat ∧ sending.progress.toNat + 1 < 2 ^ 32 := by decide

theorem witness_checksumBytesSent :
    ((sched .txDrain [.drain]).script = [.drain] ∧ (sched .txDrain [.drain]).st = .txDrain) ∧
    ((sched .idle [.drain]).script = [.drain] ∧ (sched .idle [.drain]).st ≠ .txDrain) ∧
    ((sched .txCrc [.tx]).script = [.tx] ∧ (sched .txCrc [.tx]).st = .txCrc ∧ (sched .txCrc [.tx]).idx = 0#5) ∧
    ({ sched .txCrc [.tx] with idx := 1#5 } : State).idx = 1#5 := by decide

/-- The last byte of the longest token. -/
def lastTokenByte : State :=
  { sched .tokSend [.tx] with idx := 15#5, settings := { State.reset.settings with tokenLen := 16#5 } }

theorem witness_tokenBytesSent :
    lastTokenByte.script = [.tx] ∧ lastTokenByte.st = .tokSend ∧
      lastTokenByte.idx.toNat < lastTokenByte.settings.tokenLen.toNat ∧
      ([0#32, 0#32, 0#32, 0#32] : List Word)[lastTokenByte.idx.toNat / 4]? = some 0#32 ∧
      [lastTokenByte.settings.token0, lastTokenByte.settings.token1, lastTokenByte.settings.token2,
        lastTokenByte.settings.token3] = [0#32, 0#32, 0#32, 0#32] := by decide

theorem witness_payloadReachesWire : sending.params.wf ∧ PositionInv sending ∧ sending.st = .txPayload :=
  ⟨by decide, ⟨rfl, by decide, by decide, 2, by decide, by decide, by decide⟩, rfl⟩

/-- The sixth header byte awaited, the header so far naming `lo + 256 * hi` elements. -/
def sixth (raw lo hi : Byte) : State :=
  { holding .rxHdr 0#8 with hdr := #v[raw, 7#8, lo, hi, 0#8, 0#8], idx := 5#5 }

/-- The count that the sixth byte completes. -/
def sixthCount (s : State) : Nat :=
  s.hdr[2].toNat + 256 * s.hdr[3].toNat + 65536 * s.hdr[4].toNat + 16777216 * (0#8 : Byte).toNat

theorem witness_headerJudged :
    (∀ raw lo hi : Byte, (sixth raw lo hi).script = [.rx] ∧ (sixth raw lo hi).link.held = [0#8] ∧
      (sixth raw lo hi).st = .rxHdr ∧ (sixth raw lo hi).idx = 5#5) ∧
    specWidth ((sixth 0x06#8 1#8 0#8).hdr[0] &&& 0xCF#8) = none ∧
    (specWidth ((sixth 0x34#8 0#8 4#8).hdr[0] &&& 0xCF#8) = some 4 ∧
      sixthCount (sixth 0x34#8 0#8 4#8) * 4 ≤ (sixth 0x34#8 0#8 4#8).params.pbufBytes) ∧
    (specWidth ((sixth 0x04#8 1#8 4#8).hdr[0] &&& 0xCF#8) = some 4 ∧
      (sixth 0x04#8 1#8 4#8).params.pbufBytes < sixthCount (sixth 0x04#8 1#8 4#8) * 4) :=
  ⟨fun _ _ _ => ⟨rfl, rfl, rfl, rfl⟩, by decide, by decide, by decide⟩

theorem witness_headerBytesCollected : (holding .rxHdr 0x3E#8).script = [.rx] ∧
    (holding .rxHdr 0x3E#8).link.held = [0x3E#8] ∧ (holding .rxHdr 0x3E#8).st = .rxHdr ∧
    (holding .rxHdr 0x3E#8).idx = BitVec.ofNat 5 0 ∧
    ({ holding .rxHdr 0x3E#8 with idx := 4#5 } : State).idx = BitVec.ofNat 5 4 := by decide

/-- A receive of two payload bytes, both in the transport's hands and offered. -/
def offered : State :=
  { receiving with script := [.rx, .rx], link := { State.reset.link with held := [0x80#8, 0x7F#8] } }

theorem witness_payloadByteReceived : offered.params.wf ∧ offered.script = .rx :: [.rx] ∧
    offered.link.held = 0x80#8 :: [0x7F#8] ∧ offered.st = .rxPayload ∧ offered.progress.toNat < offered.params.pbufBytes ∧
    offered.progress.toNat + 1 ≠ offered.len34.toNat ∧
    ({ offered with progress := 1#32 } : State).progress.toNat + 1 = offered.len34.toNat := by decide

theorem witness_payloadStored : receiving.params.wf ∧ receiving.st = .rxPayload ∧ ([0x80#8, 0x7F#8] : List Byte) ≠ [] ∧
    receiving.progress.toNat + ([0x80#8, 0x7F#8] : List Byte).length = receiving.len34.toNat ∧
    receiving.len34.toNat ≤ receiving.params.pbufBytes := by decide

theorem witness_checksumBytesReceived : (holding .rxCrc 0x34#8).script = [.rx] ∧
    (holding .rxCrc 0x34#8).link.held = [0x34#8] ∧ (holding .rxCrc 0x34#8).st = .rxCrc ∧
    (holding .rxCrc 0x34#8).idx = 0#5 ∧ ({ holding .rxCrc 0x34#8 with idx := 1#5 } : State).idx = 1#5 := by decide

theorem witness_validateJudges :
    ((sched .rxValidate [.internal]).script = [.internal] ∧ (sched .rxValidate [.internal]).st = .rxValidate ∧
      (sched .rxValidate [.internal]).crcRx ≠ (sched .rxValidate [.internal]).acc ∧
      (sched .rxValidate [.internal]).settings.mismatchAck = false) ∧
    ({ sched .rxValidate [.internal] with crcRx := Config.seed } : State).crcRx = (sched .rxValidate [.internal]).acc ∧
    ({ sched .rxValidate [.internal] with
      settings := { State.reset.settings with mismatchAck := true } } : State).settings.mismatchAck = true ∧
    (sched .rxAck [.internal]).st ≠ .rxValidate := by decide

theorem witness_deadlineExpiresExactly :
    (waitBound (at' .tokWait) = some (1000#32, .protocol, .token) ∧ (at' .tokWait).timer = 0#32 ∧ (1000#32 : Word) ≠ 0#32) ∧
    waitBound { at' .rxWaitSync with settings := { State.reset.settings with syncDl := 0#32 } } =
      some (0#32, .timeout, .sync) := by decide

theorem witness_gapLastsExactly : (at' .txGap).st = .txGap ∧ (at' .txGap).timer = 0#32 ∧
    (at' .txGap).settings.gap ≠ 0#32 := by decide

theorem witness_tickCounts : (sched .idle [.tick]).script = [.tick] ∧ (sched .idle [.tick]).st = .idle ∧
    (sched .txHdr [.tick]).st ≠ .idle ∧ (sched .txHdr [.tick]).st ≠ .txGap ∧ waitBound (sched .txHdr [.tick]) = none := by
  decide

theorem witness_resetRestores : (sched .rxPayload [.reset]).script = [.reset] ∧
    (sched .txGap [.powerOn]).script = [.powerOn] := by decide

theorem witness_headerRoundTrip : specWidth 5#8 = some 4 ∧
    (#v[5#8, 0x80#8, 0x78#8, 0x56#8, 0x34#8, 0x12#8] : Vector Byte 6).toList = (outHdr 5#8 0x80#8 0x12345678#32).tail := by
  decide

theorem witness_checksumStrength : ([1#8, 2#8] : List Byte).Perm [2#8, 1#8] ∧ (2#8 : Byte) ≠ 3#8 :=
  ⟨List.Perm.swap _ _ _, by decide⟩

theorem witness_decodeEncode : Params.default.wf ∧ wellFormed Params.default (.winWrite 1023 1#32) = true := by decide

theorem witness_encodeDecodedAccess : Params.default.wf := by decide

theorem witness_accessMeansRegisterMap : State.reset.params.wf := by decide

theorem witness_stepRunsInstruction :
    ((sched .idle [.hostWrite .w32 0x038 1#32]).script = [.hostWrite .w32 0x038 1#32] ∧
      decode Params.default (writeWord 0x038 1#32) = .instr (.crcFeed 1#32)) ∧
    ((sched .idle [.hostRead .w32 0x074]).script = [.hostRead .w32 0x074] ∧
      decode Params.default (readWord 0x074) = .instr .elemRead) ∧
    ((holding .rxHdr 0x34#8).script = [.rx] ∧ (holding .rxHdr 0x34#8).link.held = [0x34#8] ∧
      decode Params.default (inWord (holding .rxHdr 0x34#8) 0x34#8) = .instr (.fmtUint32 3#2)) ∧
    ((sched .rxAck [.tx]).script = [.tx] ∧ txData (sched .rxAck [.tx]) = some 0x5E#8 ∧
      decode Params.default (outWord (sched .rxAck [.tx]) 0x5E#8) = .instr .ackOut) := by decide

theorem witness_stepsAreTotal :
    (AccessWidth.w64 ≠ .w32 ∧ (sched .idle [.hostWrite .w64 0x004 1#32]).script = [.hostWrite .w64 0x004 1#32]) ∧
    (∀ w off v rest, w ≠ .w32 → (sched .idle [.hostRead .w32 0x004]).script ≠ .hostWrite w off v :: rest ∧
      (sched .idle [.hostRead .w32 0x004]).script ≠ .hostRead w off :: rest) := by
  refine ⟨by decide, ?_⟩
  intro w off v rest hw
  constructor <;> intro h <;> have h1 := (List.cons.inj h).1 <;> cases h1
  exact hw rfl

theorem witness_settingsLockedWhileBusy : (sched .rxPayload [.hostWrite .w32 0x010 5#32]).st ≠ .idle ∧
    (∀ e rest, (sched .rxPayload [.hostWrite .w32 0x010 5#32]).script = e :: rest → e ≠ .reset ∧ e ≠ .powerOn) ∧
    ∃ t, step (sched .rxPayload [.hostWrite .w32 0x010 5#32]) = .next t := by
  refine ⟨by decide, ?_, _, rfl⟩
  intro e rest h
  obtain ⟨rfl, -⟩ := List.cons.inj h
  exact ⟨nofun, nofun⟩

theorem witness_pbufWrittenByReceiverAlone :
    (holding .rxPayload 0x80#8).st ≠ .idle ∧ (∀ rest, (holding .rxPayload 0x80#8).script ≠ .powerOn :: rest) ∧
      ∃ t, step (holding .rxPayload 0x80#8) = .next t ∧ pbufByte t 0 = 0x80#8 := by
  refine ⟨by decide, ?_, _, rfl, rfl⟩
  intro rest h
  exact nomatch (List.cons.inj h).1

theorem witness_idleLeftByCommandOnly : (sched .idle [.hostWrite .w32 0x004 2#32]).st = .idle ∧
    ∃ t, step (sched .idle [.hostWrite .w32 0x004 2#32]) = .next t ∧ t.st ≠ .idle := ⟨rfl, _, rfl, by decide⟩

theorem witness_wireCarriesOfferedBytes : ∃ t, step (sched .rxAck [.tx]) = .next t ∧ t.link.wire = [0x5E#8] :=
  ⟨_, rfl, by decide⟩

theorem witness_stickyBitsStay :
    ∃ s t : State, step s = .next t ∧ (∀ e rest, s.script = e :: rest → e ≠ .reset ∧ e ≠ .powerOn ∧
      ∀ v, e = .hostWrite .w32 0x000 v → v.getLsbD 1 = false) ∧ s.status.cmdRej = true := by
  refine ⟨{ sched .rxHdr [.hostWrite .w32 0x000 1#32] with status := { Status.reset with cmdRej := true } }, _, rfl,
    ?_, rfl⟩
  intro e rest h
  obtain ⟨rfl, -⟩ := List.cons.inj h
  refine ⟨nofun, nofun, ?_⟩
  rintro v hv
  cases hv
  decide

theorem witness_stepKeepsMemory : MemoryInv receiving ∧ ∃ t, step receiving = .next t :=
  ⟨⟨by decide, by decide⟩, _, rfl⟩

theorem witness_stepKeepsRecords : StatusInv sending ∧ RegisterInv sending ∧
    ∃ t, step sending = .next t :=
  ⟨by unfold StatusInv; decide, by unfold RegisterInv; decide, _, rfl⟩

theorem witness_stepKeepsPosition : sending.params.wf ∧ PositionInv sending ∧
    ∃ t, step sending = .next t :=
  ⟨by decide, witness_payloadReachesWire.2.1, _, rfl⟩

theorem witness_stepKeepsChecksum : sending.params.wf ∧ PositionInv sending ∧ ChecksumInv sending ∧
    ∃ t, step sending = .next t :=
  ⟨by decide, witness_payloadReachesWire.2.1, rfl, _, rfl⟩

theorem witness_resetIsSound : ({ Params.default with pbufBytes := 8, hostAddrW := 40 } : Params).wf := by decide

end Sys2Proof.Tests
end

section
/-!
The sticky bits of STATUS (spec/10_state.md R43): every operation keeps them but CLEAR (R156) and reset (R340), so a
step that is none of those keeps them.
-/

namespace Sys2Proof.Machine

/-- Each of CMD_REJ, HOST_CONFLICT and ELEM_ERR that `a` has set, `b` has set too (R43). -/
def StickyKept (a b : Status) : Prop :=
  (a.cmdRej = true → b.cmdRej = true) ∧ (a.hostConflict = true → b.hostConflict = true) ∧
    (a.elemErr = true → b.elemErr = true)

@[simp] theorem StickyKept.refl (a : Status) : StickyKept a a := ⟨id, id, id⟩

theorem StickyKept.of_eq {a b : Status} (h : b = a) : StickyKept a b := h ▸ .refl b

/-- The fields that record a transfer are no sticky bits: whatever a start, a completion, an abort or the validation
writes to them, the sticky bits stay. -/
@[simp] theorem stickyKept_record_iff {a b : Status} {d e m : Bool} {c : ErrCode} {w : ErrWait} :
    StickyKept a ⟨d, e, b.cmdRej, b.hostConflict, b.elemErr, m, c, w⟩ ↔ StickyKept a b := Iff.rfl

theorem rejectCommand_stickyKept (s : State) : StickyKept s.status (rejectCommand s).status := by
  simp [StickyKept]

theorem hostConflict_stickyKept (s : State) : StickyKept s.status (hostConflict s).status := by
  simp [StickyKept]

theorem elemError_stickyKept (s : State) : StickyKept s.status (elemError s).status := by
  simp [StickyKept]

/-! ### Commands and host accesses -/

theorem acceptCommand_stickyKept {start : State → State} {s : State} (h : StickyKept s.status (start s).status) :
    StickyKept s.status (acceptCommand start s).status := by
  cases hb : busy s
  · rwa [acceptCommand_idle s hb]
  · rw [acceptCommand_busy s hb]
    exact rejectCommand_stickyKept s

theorem lockedWrite_stickyKept {f : State → State} {s : State} (h : StickyKept s.status (f s).status) :
    StickyKept s.status (lockedWrite f s).status := by
  cases hb : busy s
  · rwa [lockedWrite_idle s hb]
  · rw [lockedWrite_busy s hb]
    exact hostConflict_stickyKept s

/-- "Transfer start does not clear them" (R43), whether the start is accepted or aborts. -/
theorem startSendData_stickyKept (s : State) : StickyKept s.status (startSendData s).status := by
  rcases startSendData_cases s with ⟨-, h⟩ | ⟨-, -, h⟩ | ⟨f, -, -, -, h⟩ | ⟨f, -, -, -, h⟩ <;> simp [h]

theorem startRecvData_stickyKept (s : State) : StickyKept s.status (startRecvData s).status := by
  rcases startRecvData_cases s with ⟨-, h⟩ | ⟨-, h⟩ <;> simp [h]

theorem startSendToken_stickyKept (s : State) : StickyKept s.status (startSendToken s).status := by
  rcases startSendToken_cases s with ⟨-, h⟩ | ⟨-, -, h⟩ | ⟨-, -, h⟩ <;> simp [h]

theorem commandWrite_stickyKept (v : Word) (s : State) : StickyKept s.status (commandWrite v s).status := by
  unfold commandWrite
  split
  · exact .refl _
  · exact acceptCommand_stickyKept (startSendData_stickyKept s)
  · exact acceptCommand_stickyKept (startRecvData_stickyKept s)
  · exact acceptCommand_stickyKept (startSendToken_stickyKept s)
  · exact acceptCommand_stickyKept (.refl _)
  · exact rejectCommand_stickyKept s

/-- A CTRL write without CLEAR, CANCEL's abort of a running transfer included, keeps the sticky bits (R154, R155). -/
theorem ctrlWrite_stickyKept (cancel : Bool) (s : State) : StickyKept s.status (ctrlWrite cancel false s).status := by
  cases cancel with
  | false => exact .refl _
  | true => rcases cancelTransfer_cases s with ⟨-, h⟩ | ⟨-, h⟩ <;> simp [ctrlWrite, h]

theorem crcFeedWrite_stickyKept (v : Word) (s : State) : StickyKept s.status (crcFeedWrite v s).status :=
  lockedWrite_stickyKept (.refl _)

theorem memWrite_status (off : Nat) (v : Word) (n : Nat) (s : State) : (memWrite off v n s).status = s.status := by
  rw [memWrite_frame]

theorem elemDataWrite_stickyKept (v : Word) (s : State) : StickyKept s.status (elemDataWrite v s).status := by
  refine lockedWrite_stickyKept ?_
  unfold elemStore
  split
  · exact .of_eq (memWrite_status _ v _ s)
  · exact elemError_stickyKept s

theorem elemDataRead_stickyKept (s : State) : StickyKept s.status (elemDataRead s).status := by
  obtain ⟨v, h | h⟩ := elemDataRead_frame s <;> rw [h, returnWord_status]
  · exact .refl _
  · exact elemError_stickyKept s

theorem windowRead_stickyKept (k : Nat) (s : State) : StickyKept s.status (windowRead k s).status := by
  obtain ⟨v, h⟩ := windowRead_frame s k
  rw [h]
  exact .refl _

theorem windowWrite_stickyKept (k : Nat) (v : Word) (s : State) : StickyKept s.status (windowWrite k v s).status := by
  unfold windowWrite
  split
  · exact lockedWrite_stickyKept (.of_eq (memWrite_status _ v 4 s))
  · exact .refl _

theorem hostRead_stickyKept (off : Nat) (s : State) : StickyKept s.status (hostRead off s).status := by
  obtain ⟨v, h | h⟩ := hostRead_frame s off <;> rw [h, returnWord_status]
  · exact .refl _
  · exact elemError_stickyKept s

/-- A register write keeps the sticky bits, unless it writes CLEAR to CTRL (R156). -/
theorem regStore_stickyKept {r : Reg} {v : Word} (h : r = .ctrl → v.getLsbD 1 = false) (s : State) :
    StickyKept s.status (regStore r v s).status := by
  cases r with
  | ctrl =>
    simp only [regStore, h rfl]
    exact ctrlWrite_stickyKept _ s
  | cmd => exact commandWrite_stickyKept v s
  | crcFeed => exact crcFeedWrite_stickyKept v s
  | elemData => exact elemDataWrite_stickyKept v s
  | txFmt | txTag | txCount | readyDl | ackDl | syncDl | byteDl | gap | cfg | tokenLen | token0 | token1 | token2
  | token3 => exact lockedWrite_stickyKept (.refl _)
  | elemFmt | elemIdx | status | rxFmt | rxTag | rxCount | len | lenHi | progress | timer | crcAcc | crcRx
  | pbufSize => exact .refl _

/-- The register that an offset has stands at that offset. -/
theorem regOffset_of_regAt {p : Params} {off : Nat} {r : Reg} (h : regAt p off = some r) : regOffset r = off := by
  unfold regAt at h
  split at h
  · simpa using List.find?_some h
  · cases h

theorem hostWrite_stickyKept {off : Nat} {v : Word} (h : off = 0x000 → v.getLsbD 1 = false) (s : State) :
    StickyKept s.status (hostWrite off v s).status := by
  unfold hostWrite
  split
  · exact windowWrite_stickyKept _ v s
  · split
    case h_1 r hr =>
      refine regStore_stickyKept (fun hctrl => h ?_) s
      rw [← regOffset_of_regAt hr, hctrl]
      rfl
    case h_2 => exact .refl _

/-! ### Bytes -/

theorem waitReadyGot_stickyKept (b : Byte) (s : State) : StickyKept s.status (waitReadyGot b s).status := by
  unfold waitReadyGot
  split_ifs <;> simp

theorem waitAckGot_stickyKept (b : Byte) (s : State) : StickyKept s.status (waitAckGot b s).status := by
  unfold waitAckGot
  split_ifs <;> simp

theorem tokWaitGot_stickyKept (b : Byte) (s : State) : StickyKept s.status (tokWaitGot b s).status := by
  unfold tokWaitGot
  split_ifs <;> simp

theorem waitSyncGot_status (b : Byte) (s : State) : (waitSyncGot b s).status = s.status := by
  unfold waitSyncGot
  split <;> rfl

/-- The header's checks may abort, which keeps the sticky bits (R154, R262). -/
theorem headerDone_stickyKept (s : State) : StickyKept s.status (headerDone s).status := by
  unfold headerDone
  dsimp only
  split
  · simp
  · split <;> simp

theorem rxHdrGot_stickyKept (b : Byte) (s : State) : StickyKept s.status (rxHdrGot b s).status := by
  unfold rxHdrGot
  dsimp only
  split
  · exact headerDone_stickyKept { s with hdr := s.hdr.setIfInBounds s.idx.toNat b, idx := s.idx + 1#5, timer := 0#32 }
  · exact .refl _

theorem rxPayloadGot_status (b : Byte) (s : State) : (rxPayloadGot b s).status = s.status := by
  unfold rxPayloadGot
  rw [setPbufByte_frame]
  dsimp only
  split <;> rfl

theorem rxCrcGot_status (b : Byte) (s : State) : (rxCrcGot b s).status = s.status := by
  unfold rxCrcGot
  dsimp only
  split <;> rfl

/-- A byte the transport offers keeps the sticky bits, in every state (R143). -/
theorem offerByte_stickyKept (b : Byte) (s : State) : StickyKept s.status (offerByte b s).status := by
  rcases offerByte_cases s b with ⟨-, h⟩ | ⟨-, h⟩ | ⟨-, h⟩ | ⟨-, h⟩ | ⟨-, h⟩ | ⟨-, h⟩ | ⟨-, h⟩ | ⟨-, h⟩ <;> rw [h]
  · exact .refl _
  · exact waitReadyGot_stickyKept b s
  · exact waitAckGot_stickyKept b s
  · exact .of_eq (waitSyncGot_status b s)
  · exact rxHdrGot_stickyKept b s
  · exact .of_eq (rxPayloadGot_status b s)
  · exact .of_eq (rxCrcGot_status b s)
  · exact tokWaitGot_stickyKept b s

theorem txHdrSent_status (s : State) : (txHdrSent s).status = s.status := by
  unfold txHdrSent
  dsimp only
  split <;> rfl

theorem txPayloadSent_status (b : Byte) (s : State) : (txPayloadSent b s).status = s.status := by
  unfold txPayloadSent
  dsimp only
  split_ifs <;> rfl

theorem txCrcSent_status (s : State) : (txCrcSent s).status = s.status := by
  unfold txCrcSent
  dsimp only
  split <;> rfl

theorem readySent_status (s : State) : (readySent s).status = s.status := by
  unfold readySent
  split <;> rfl

theorem tokenSent_status (s : State) : (tokenSent s).status = s.status := by
  unfold tokenSent
  dsimp only
  split <;> rfl

/-- A byte taken writes STATUS at most by completing the transfer (R152), so it keeps the sticky bits. -/
theorem takeByte_stickyKept (b : Byte) (s : State) : StickyKept s.status (takeByte b s).status := by
  rcases takeByte_cases s b _ rfl with ⟨-, h⟩ | ⟨-, -, h⟩ | ⟨-, -, h⟩ | ⟨-, -, h⟩ | ⟨-, -, h⟩ | ⟨-, -, h⟩ | ⟨-, -, h⟩ <;>
    simp [h, txHdrSent_status, txPayloadSent_status, txCrcSent_status, readySent_status, tokenSent_status]

theorem passFormatByte_stickyKept (b : Byte) (s : State) : StickyKept s.status (passFormatByte b s).status := by
  unfold passFormatByte
  split
  · exact takeByte_stickyKept b s
  · exact offerByte_stickyKept b s

/-! ### EDLINK's own events -/

theorem deadline_stickyKept (dl : Word) (code : ErrCode) (wait : ErrWait) (s : State) :
    StickyKept s.status (deadline dl code wait s).status := by
  rcases deadline_cases s dl code wait with ⟨-, -, h⟩ | ⟨-, h⟩ <;> simp [h]

theorem txGapTick_status (s : State) : (txGapTick s).status = s.status := by
  unfold txGapTick
  split_ifs <;> rfl

/-- A tick writes STATUS at most by a deadline's abort (R151), so it keeps the sticky bits. -/
theorem tickStep_stickyKept (s : State) : StickyKept s.status (tickStep s).status := by
  by_cases hidle : s.st = .idle
  · rw [tickStep_idle s hidle]
    exact .refl _
  by_cases hgap : s.st = .txGap
  · rw [tickStep_gap s hgap, txGapTick_status]
    exact .refl _
  cases hwait : waitBound s with
  | none =>
    rw [tickStep_other s hidle hgap hwait]
    exact .refl _
  | some bound =>
    rw [tickStep_wait s hwait]
    exact deadline_stickyKept _ _ _ { s with timer := satInc s.timer }

theorem drainStep_status (s : State) : (drainStep s).status = s.status := by
  unfold drainStep
  split <;> rfl

/-- The validation writes CRC_MATCH and may abort, which keeps the sticky bits (R266). -/
theorem internalStep_stickyKept (s : State) : StickyKept s.status (internalStep s).status := by
  unfold internalStep validate
  dsimp only
  split_ifs <;> simp

/-! ### The step -/

/-- The instruction writes CLEAR, v[1] = 1, to CTRL (R40, R156). -/
def writesClear : Instr → Bool
  | .cancel clr _ => clr
  | .clear _ => true
  | .regWrite off v => off == 0x000 && v.getLsbD 1
  | _ => false

/-- An instruction keeps the sticky bits, unless it writes CLEAR. -/
theorem exec_stickyKept {i : Instr} {s t : State} (hi : writesClear i = false) (h : exec i s = .next t) :
    StickyKept s.status t.status := by
  suffices hk : ∃ u, exec i s = .next u ∧ StickyKept s.status u.status by
    obtain ⟨u, hu, hk⟩ := hk
    rwa [Host.Outcome.next.inj (h.symm.trans hu)]
  cases i with
  | nop => exact ⟨_, rfl, .refl _⟩
  | sendData => exact ⟨_, rfl, acceptCommand_stickyKept (startSendData_stickyKept s)⟩
  | recvData => exact ⟨_, rfl, acceptCommand_stickyKept (startRecvData_stickyKept s)⟩
  | sendToken => exact ⟨_, rfl, acceptCommand_stickyKept (startSendToken_stickyKept s)⟩
  | crcInit => exact ⟨_, rfl, acceptCommand_stickyKept (.refl _)⟩
  | reserved05 | reserved06 | reserved08 | reserved10 | reserved20 | reserved40 | reserved80 =>
    exact ⟨_, rfl, rejectCommand_stickyKept s⟩
  | cancel clr =>
    obtain rfl : clr = false := hi
    exact ⟨_, rfl, ctrlWrite_stickyKept true s⟩
  | clear => cases hi
  | crcFeed v => exact ⟨_, rfl, crcFeedWrite_stickyKept v s⟩
  | elemRead => exact ⟨_, rfl, elemDataRead_stickyKept s⟩
  | elemWrite v => exact ⟨_, rfl, elemDataWrite_stickyKept v s⟩
  | winRead k => exact ⟨_, rfl, windowRead_stickyKept k s⟩
  | winWrite k v => exact ⟨_, rfl, windowWrite_stickyKept k v s⟩
  | regRead off => exact ⟨_, rfl, hostRead_stickyKept off s⟩
  | regWrite off v => exact ⟨_, rfl, hostWrite_stickyKept (by simpa [writesClear] using hi) s⟩
  | syncOut | readyOut | ackOut => exact ⟨_, rfl, takeByte_stickyKept _ s⟩
  | syncIn | readyIn | ackIn => exact ⟨_, rfl, offerByte_stickyKept _ s⟩
  | fmtUint8 | fmtInt8 | fmtUint16 | fmtInt16 | fmtUint32 | fmtInt32 =>
    exact ⟨_, rfl, passFormatByte_stickyKept _ s⟩

theorem writesClear_decodeCmd (v : Word) : writesClear (decodeCmd v) = false := by
  simp only [decodeCmd, apply_ite writesClear]
  simp only [writesClear, ite_self]

/-- A host write without v[1] = 1 at offset 0 decodes to no instruction that writes CLEAR. -/
theorem writesClear_decodeHostWrite (p : Params) {off : Nat} {v : Word} (h : off = 0x000 → v.getLsbD 1 = false) :
    writesClear (decodeHostWrite p off v) = false := by
  by_cases h0 : off = 0x000
  · have hv := h h0
    unfold decodeHostWrite
    rw [if_pos h0]
    split_ifs <;> simp_all [writesClear]
  · unfold decodeHostWrite
    rw [if_neg h0]
    split_ifs
    · exact writesClear_decodeCmd v
    · rfl
    · rfl
    · split <;> simp [writesClear, h0]

theorem writesClear_decodeHostRead (p : Params) (off : Nat) : writesClear (decodeHostRead p off) = false := by
  unfold decodeHostRead
  split
  · rfl
  · split <;> rfl

/-- Settles O54: of everything a step can do, only CLEAR, reset and power-on write a sticky bit to 0. -/
theorem stickyBitsStay : Obligations.StickyBitsStay := by
  unfold Obligations.StickyBitsStay
  intro s t hstep hevent
  change StickyKept s.status t.status
  rcases step_cases hstep with ⟨-, rfl⟩ | ⟨off, v, rest, hs, hexec⟩ | ⟨off, rest, -, hexec⟩ | ⟨rest, -, -, rfl⟩ |
    ⟨b, more, rest, -, -, rfl⟩ | ⟨rest, -, -, rfl⟩ | ⟨b, rest, -, -, rfl⟩ | ⟨rest, -, rfl⟩ | ⟨rest, -, rfl⟩ |
    ⟨rest, -, rfl⟩ | ⟨rest, hs, -⟩ | ⟨rest, hs, -⟩ | ⟨b, rest, -, rfl⟩ | ⟨isOpen, rest, -, rfl⟩
  · exact internalStep_stickyKept s
  · obtain ⟨-, -, hclear⟩ := hevent _ _ hs
    have hoff : off = 0x000 → v.getLsbD 1 = false := by
      rintro rfl
      exact hclear v rfl
    exact exec_stickyKept (s := passed rest s) (writesClear_decodeHostWrite _ hoff) hexec
  · exact exec_stickyKept (s := passed rest s) (writesClear_decodeHostRead _ off) hexec
  · exact .refl _
  · exact offerByte_stickyKept b (handedOver more rest s)
  · exact .refl _
  · exact takeByte_stickyKept b (passed rest s)
  · exact .of_eq (drainStep_status (passed rest s))
  · exact tickStep_stickyKept (passed rest s)
  · exact internalStep_stickyKept (passed rest s)
  · exact absurd rfl (hevent _ _ hs).1
  · exact absurd rfl (hevent _ _ hs).2.1
  · exact .refl _
  · exact .refl _

end Sys2Proof.Machine
end

section
/-!
Every step has an outcome (spec/40_engine.md R142): an access that is not 32 bits wide is refused by name
(spec/20_memory.md R77), and every other event, no event among them, has a next state.
-/

namespace Sys2Proof.Machine

theorem exec_has_next (i : Instr) (s : State) : ∃ t, exec i s = .next t :=
  let ⟨t, ht, _⟩ := exec_cases i s
  ⟨t, ht⟩

/-! ### The access that is not 32 bits wide -/

theorem step_hostWrite_refused {s : State} {w : AccessWidth} {off : Nat} {v : Word} {rest : List Event}
    (hw : w ≠ .w32) (h : s.script = .hostWrite w off v :: rest) : step s = .refused (.hostAccessWidth w) := by
  simp [step_eq_outcomeOf, fetch, h, fetchEvent, fetchAccess, hw, outcomeOf]

theorem step_hostRead_refused {s : State} {w : AccessWidth} {off : Nat} {rest : List Event}
    (hw : w ≠ .w32) (h : s.script = .hostRead w off :: rest) : step s = .refused (.hostAccessWidth w) := by
  simp [step_eq_outcomeOf, fetch, h, fetchEvent, fetchAccess, hw, outcomeOf]

/-! ### Every other event -/

theorem step_hostWrite_has_next {s : State} {off : Nat} {v : Word} {rest : List Event}
    (h : s.script = .hostWrite .w32 off v :: rest) : ∃ t, step s = .next t := by
  rw [step_hostWrite h]
  exact exec_has_next _ _

theorem step_hostRead_has_next {s : State} {off : Nat} {rest : List Event}
    (h : s.script = .hostRead .w32 off :: rest) : ∃ t, step s = .next t := by
  rw [step_hostRead h]
  exact exec_has_next _ _

/-- A byte due from the transport passes, or none is there and nothing happens (R140). -/
theorem step_rx_has_next {s : State} {rest : List Event} (h : s.script = .rx :: rest) : ∃ t, step s = .next t := by
  cases hheld : s.link.held with
  | nil => exact ⟨_, step_rx_none h hheld⟩
  | cons b more => exact ⟨_, step_rx h hheld⟩

/-- A byte EDLINK offers is taken, or it offers none and nothing happens (R140). -/
theorem step_tx_has_next {s : State} {rest : List Event} (h : s.script = .tx :: rest) : ∃ t, step s = .next t := by
  cases hdata : txData s with
  | none => exact ⟨_, step_tx_none h hdata⟩
  | some b => exact ⟨_, step_tx h hdata⟩

theorem fetch_cons {s : State} {e : Event} {rest : List Event} (h : s.script = e :: rest) :
    fetch s = fetchEvent e (passed rest s) := by
  rw [fetch, h]
  rfl

/-- An event that is no instruction has its whole effect in its fetch (R140). -/
theorem step_of_fetch_event {s t : State} (h : fetch s = .event (.next t)) : step s = .next t := by
  rw [step_eq_outcomeOf, h, outcomeOf]

/-- A step has a next state, unless the next event is an access that is not 32 bits wide. -/
theorem step_has_next {s : State}
    (hwrite : ∀ w off v rest, s.script = .hostWrite w off v :: rest → w = .w32)
    (hread : ∀ w off rest, s.script = .hostRead w off :: rest → w = .w32) : ∃ t, step s = .next t := by
  cases hs : s.script with
  | nil => exact ⟨_, step_of_fetch_event (by rw [fetch, hs])⟩
  | cons e rest =>
    cases e with
    | hostWrite w off v =>
      obtain rfl := hwrite w off v rest hs
      exact step_hostWrite_has_next hs
    | hostRead w off =>
      obtain rfl := hread w off rest hs
      exact step_hostRead_has_next hs
    | rx => exact step_rx_has_next hs
    | tx => exact step_tx_has_next hs
    | drain | tick | internal | reset | powerOn | peerByte | linkLevel =>
      exact ⟨_, step_of_fetch_event (fetch_cons hs)⟩

/-- Settles O49: the refusal by the width of the access at the head of the schedule, the next state by the event
there. -/
theorem stepsAreTotal : Obligations.StepsAreTotal := by
  unfold Obligations.StepsAreTotal
  intro s
  constructor
  · rintro w off v rest hw (h | h)
    · exact step_hostWrite_refused hw h
    · exact step_hostRead_refused hw h
  · intro hwide
    refine step_has_next (fun w off v rest h => ?_) (fun w off rest h => ?_) <;> by_contra hw
    · exact (hwide w off v rest hw).1 h
    · exact (hwide w off 0#32 rest hw).2 h

end Sys2Proof.Machine
end

section
/-!
The reserved opcodes of CMD (spec/30_encoding.md R111): each of the opcode table's seven reserved rows rejects the
command, whatever the state and the bits the row leaves open.
-/

namespace Sys2Proof.Machine

/-! ### One rule per reserved row -/

section
variable (hi : BitVec 24) (s : State)

@[simp] theorem exec_reserved05 : exec (.reserved05 hi) s = .next (rejectCommand s) := rfl
@[simp] theorem exec_reserved06 (low : BitVec 1) : exec (.reserved06 low hi) s = .next (rejectCommand s) := rfl
@[simp] theorem exec_reserved08 (low : BitVec 3) : exec (.reserved08 low hi) s = .next (rejectCommand s) := rfl
@[simp] theorem exec_reserved10 (low : BitVec 4) : exec (.reserved10 low hi) s = .next (rejectCommand s) := rfl
@[simp] theorem exec_reserved20 (low : BitVec 5) : exec (.reserved20 low hi) s = .next (rejectCommand s) := rfl
@[simp] theorem exec_reserved40 (low : BitVec 6) : exec (.reserved40 low hi) s = .next (rejectCommand s) := rfl
@[simp] theorem exec_reserved80 (low : BitVec 7) : exec (.reserved80 low hi) s = .next (rejectCommand s) := rfl

end

/-- Settles O8: every reserved row runs `rejectCommand`, which sets CMD_REJ alone. -/
theorem reservedCommandsRejected : Obligations.ReservedCommandsRejected := by
  unfold Obligations.ReservedCommandsRejected
  intro hi x1 x3 x4 x5 x6 x7 s i hmem
  have hreject : exec i s = .next (rejectCommand s) := by
    simp only [List.mem_cons, List.not_mem_nil, or_false] at hmem
    obtain rfl | rfl | rfl | rfl | rfl | rfl | rfl := hmem
    · exact exec_reserved05 hi s
    · exact exec_reserved06 hi s x1
    · exact exec_reserved08 hi s x3
    · exact exec_reserved10 hi s x4
    · exact exec_reserved20 hi s x5
    · exact exec_reserved40 hi s x6
    · exact exec_reserved80 hi s x7
  rw [hreject, rejectCommand]

end Sys2Proof.Machine
end

section
/-!
NOP (spec/40_engine.md R157), which does nothing, and the commands of CTRL, CANCEL and CLEAR (R155, R156),
where CLEAR is judged on BUSY before the write and CANCEL follows it.
-/

namespace Sys2Proof.Machine

section
variable (s : State)

/-! ### The rows' meanings -/

@[simp] theorem exec_nop (hi : BitVec 24) : exec (.nop hi) s = .next s := rfl
@[simp] theorem exec_cancel (clr : Bool) (hi : BitVec 30) :
    exec (.cancel clr hi) s = .next (cancelTransfer (if clr then clearRecord s else s)) := rfl
@[simp] theorem exec_clear (hi : BitVec 30) : exec (.clear hi) s = .next (clearRecord s) := rfl

/-! ### CLEAR and CANCEL, while busy and in IDLE -/

theorem clearRecord_busy (h : busy s = true) : clearRecord s =
    { s with status := { s.status with cmdRej := false, hostConflict := false, elemErr := false } } := by
  simpa [h] using clearRecord_cases s

theorem clearRecord_idle (h : busy s = false) : clearRecord s = { s with status := Status.reset } := by
  simpa [h] using clearRecord_cases s

theorem cancelTransfer_busy (h : busy s = true) : cancelTransfer s = aborted .cancelled .none s := if_pos h

theorem cancelTransfer_idle (h : busy s = false) : cancelTransfer s = s := if_neg (by simp [h])

/-- CLEAR writes STATUS alone, so the CANCEL of the same write is judged on the BUSY that CLEAR met (R155). -/
@[simp] theorem busy_clearRecord : busy (clearRecord s) = busy s := by
  cases h : busy s
  · rw [clearRecord_idle s h]
    exact h
  · rw [clearRecord_busy s h]
    exact h

theorem busy_clearIf (clr : Bool) : busy (if clr then clearRecord s else s) = busy s := by
  cases clr
  · rfl
  · exact busy_clearRecord s

theorem exec_cancel_busy (clr : Bool) (hi : BitVec 30) (h : busy s = true) :
    exec (.cancel clr hi) s = .next (aborted .cancelled .none (if clr then clearRecord s else s)) := by
  rw [exec_cancel, cancelTransfer_busy _ (by rwa [busy_clearIf])]

theorem exec_cancel_idle (clr : Bool) (hi : BitVec 30) (h : busy s = false) :
    exec (.cancel clr hi) s = .next (if clr then clearRecord s else s) := by
  rw [exec_cancel, cancelTransfer_idle _ (by rwa [busy_clearIf])]

end

/-- Settles O1: the NOP row answers the state it met. -/
theorem nopChangesNothing : Obligations.NopChangesNothing := by
  unfold Obligations.NopChangesNothing
  intro hi s
  exact exec_nop s hi

/-- Settles O9: CANCEL and CLEAR each by the BUSY they meet, which the CLEAR of a CANCEL write leaves as it was. -/
theorem cancelAndClear : Obligations.CancelAndClear := by
  unfold Obligations.CancelAndClear
  rintro clr hi s _ _ rfl rfl
  refine ⟨fun hst => ?cancelBusy, fun hst => ?cancelIdle, fun hst => ?clearBusy, fun hst => ?clearIdle⟩
  case cancelBusy =>
    have hb : busy s = true := (busy_eq_true_iff s).mpr hst
    rw [exec_cancel_busy s clr hi hb, clearRecord_busy s hb]
    cases clr <;> rfl
  case cancelIdle =>
    have hb : busy s = false := (busy_eq_false_iff s).mpr hst
    rw [exec_cancel_idle s clr hi hb, clearRecord_idle s hb]
    cases clr <;> rfl
  case clearBusy => rw [exec_clear, clearRecord_busy s ((busy_eq_true_iff s).mpr hst)]
  case clearIdle => rw [exec_clear, clearRecord_idle s ((busy_eq_false_iff s).mpr hst), Status.reset]

end Sys2Proof.Machine
end

section
/-!
The outbound header (spec/43_transmit.md R222): each TxByte in TX_HDR sends the byte of `OutHdr` at IDX (R172), and the
one after byte 6 opens the wait for readiness.
-/

namespace Sys2Proof.Machine

/-! ### The header's bytes -/

/-- A word's byte by division, its place value written as the power of 256 (R76). -/
theorem byteOf_eq_ofNat (v : Word) (i : Nat) : byteOf v i = BitVec.ofNat 8 (v.toNat / 256 ^ i) :=
  BitVec.eq_of_toNat_eq (by rw [byteOf_toNat, BitVec.toNat_ofNat])

/-- `OutHdr` with the four bytes of the count as numbers (R172). -/
theorem outHdr_eq (fmt tag : Byte) (count : Word) :
    outHdr fmt tag count =
      [0x3C#8, fmt, tag, BitVec.ofNat 8 count.toNat, BitVec.ofNat 8 (count.toNat / 256),
        BitVec.ofNat 8 (count.toNat / 65536), BitVec.ofNat 8 (count.toNat / 16777216)] := by
  simp [outHdr, byteOf_eq_ofNat, Config.txSync]

theorem txData_txHdr {s : State} (hst : s.st = .txHdr) :
    txData s = (outHdr s.settings.txFmt s.settings.txTag s.settings.txCount)[s.idx.toNat]? := by
  simp [txData, hst]

/-! ### A byte of the header passes -/

/-- IDX is counted before it is compared with the header's length, so byte 6 is the last. -/
theorem txHdrSent_eq (s : State) :
    txHdrSent s =
      if s.idx = 6#5 then { s with st := .txWaitReady, idx := 0#5, timer := 0#32 }
      else { s with idx := s.idx + 1#5 } := by
  have hlast : s.idx + 1#5 = 7#5 ↔ s.idx = 6#5 := by bv_omega
  simp only [txHdrSent, hlast, enter]

theorem takeByte_txHdr {s : State} {b : Byte} (hst : s.st = .txHdr) (hd : txData s = some b) :
    takeByte b s = txHdrSent { s with link := { s.link with wire := s.link.wire ++ [b] } } := by
  simpa [hst, hd] using takeByte_cases s b _ rfl

/-- Settles O26: the byte offered is the header's byte at IDX, and its taking is the rule of TX_HDR. -/
theorem outboundHeaderBytes : Obligations.OutboundHeaderBytes := by
  unfold Obligations.OutboundHeaderBytes
  intro s rest b hscript hst hbyte
  have hd : txData s = some b := by rw [txData_txHdr hst, outHdr_eq, hbyte]
  calc step s
    _ = .next (takeByte b (passed rest s)) := step_tx hscript hd
    _ = .next (txHdrSent (sent b rest s)) := by rw [takeByte_txHdr (s := passed rest s) hst hd]; rfl
    _ = _ := by rw [txHdrSent_eq]; rfl

end Sys2Proof.Machine
end

section
/-!
The checksum (spec/42_checksum.md): the accumulator after a sequence of bytes in closed form (R206), what that form says
of its strength (R208), and the host's two ways to it, the CRC_INIT command (R204) and the CRC_FEED register (R205).
-/

namespace Sys2Proof.Machine

/-! ### The closed form -/

theorem sumUpdate_toNat (acc : Sum16) (b : Byte) : (sumUpdate acc b).toNat = (acc.toNat + b.toNat) % 65536 := by
  rw [sumUpdate, BitVec.toNat_add, BitVec.toNat_setWidth_of_le (by decide)]

@[simp] theorem sumBytes_nil (acc : Sum16) : sumBytes acc [] = acc := rfl

@[simp] theorem sumBytes_cons (acc : Sum16) (b : Byte) (bs : List Byte) :
    sumBytes acc (b :: bs) = sumBytes (sumUpdate acc b) bs := rfl

/-- R206 from any accumulator, as the induction needs it: the bytes count by their sum alone. -/
theorem sumBytes_toNat (acc : Sum16) (bs : List Byte) :
    (sumBytes acc bs).toNat = (acc.toNat + (bs.map BitVec.toNat).sum) % 65536 := by
  induction bs generalizing acc with
  | nil =>
    have hacc := acc.isLt
    rw [sumBytes_nil, List.map_nil, List.sum_nil]
    omega
  | cons b bs ih =>
    rw [sumBytes_cons, ih, sumUpdate_toNat, List.map_cons, List.sum_cons]
    omega

/-! ### Its strength -/

theorem sumBytes_perm (acc : Sum16) {bs cs : List Byte} (h : bs.Perm cs) : sumBytes acc bs = sumBytes acc cs := by
  have hsum : (bs.map BitVec.toNat).sum = (cs.map BitVec.toNat).sum := (h.map _).sum_eq
  exact BitVec.eq_of_toNat_eq (by rw [sumBytes_toNat, sumBytes_toNat, hsum])

/-- Two bytes differ by less than the modulus, so the sums around them differ too. -/
theorem sumBytes_ne_of_byte_ne (acc : Sum16) (xs ys : List Byte) {b c : Byte} (h : b ≠ c) :
    sumBytes acc (xs ++ b :: ys) ≠ sumBytes acc (xs ++ c :: ys) := by
  have hb := b.isLt
  have hc := c.isLt
  intro heq
  have hsum := congrArg BitVec.toNat heq
  simp only [sumBytes_toNat, List.map_append, List.map_cons, List.sum_append, List.sum_cons] at hsum
  exact h (BitVec.eq_of_toNat_eq (by omega))

/-! ### The host's rows -/

theorem exec_crcInit (hi : BitVec 24) (s : State) : exec (.crcInit hi) s = .next (acceptCommand initAcc s) := rfl

theorem exec_crcFeed (v : Word) (s : State) :
    exec (.crcFeed v) s = .next (lockedWrite (feedAcc (v.extractLsb' 0 8)) s) := rfl

theorem exec_regRead (off : Nat) (s : State) : exec (.regRead off) s = .next (hostRead off s) := rfl

theorem sumUpdate_lowByte (acc : Sum16) (v : Word) :
    sumUpdate acc (v.extractLsb' 0 8) = BitVec.ofNat 16 (acc.toNat + v.toNat % 256) := by
  have hlow : (v.extractLsb' 0 8).toNat = v.toNat % 256 := by rw [BitVec.extractLsb'_toNat, Nat.shiftRight_zero]
  exact BitVec.eq_of_toNat_eq (by rw [sumUpdate_toNat, hlow, BitVec.toNat_ofNat])

theorem regOffset_lt_window (r : Reg) : regOffset r < 0x1000 := by cases r <;> decide

/-- A register lies below the window, so a read of its offset loads it (R38). -/
theorem hostRead_regOffset {s : State} (hp : s.params.wf) (r : Reg) : hostRead (regOffset r) s = regLoad r s := by
  rw [hostRead, windowIndex_low _ _ (regOffset_lt_window r), regAt_regOffset _ hp]

/-! ### The obligations -/

/-- Settles O42: the closed form, from the seed that init leaves. -/
theorem checksumClosedForm : Obligations.ChecksumClosedForm := by
  unfold Obligations.ChecksumClosedForm
  exact sumBytes_toNat Config.seed

/-- Settles O43: reordering and the change of one byte by the closed form, the compensating pair by evaluation. -/
theorem checksumStrength : Obligations.ChecksumStrength := by
  unfold Obligations.ChecksumStrength
  refine ⟨fun acc bs cs hperm => ?reordered, fun acc xs ys b c hne => ?changed, ?pair, ?compensated⟩
  case reordered => exact sumBytes_perm acc hperm
  case changed => exact sumBytes_ne_of_byte_ne acc xs ys hne
  case pair => decide
  case compensated => decide

/-- Settles O6: the command is accepted in IDLE, whatever the link level, and rejected elsewhere. -/
theorem crcInitSeeds : Obligations.CrcInitSeeds := by
  unfold Obligations.CrcInitSeeds
  refine fun hi s => ⟨fun hst => ?idle, fun hst => ?busy⟩
  case idle => rw [exec_crcInit, acceptCommand_idle s ((busy_eq_false_iff s).mpr hst), initAcc, Config.seed]
  case busy => rw [exec_crcInit, acceptCommand_busy s ((busy_eq_true_iff s).mpr hst), rejectCommand]

/-- Settles O10: the write by the lock on the accumulator, the read by the register's place in the map. -/
theorem crcFeedAdds : Obligations.CrcFeedAdds := by
  unfold Obligations.CrcFeedAdds
  refine fun v s => ⟨fun hst => ?idle, fun hst => ?busy, fun hp => ?read⟩
  case idle => rw [exec_crcFeed, lockedWrite_idle s ((busy_eq_false_iff s).mpr hst), feedAcc, sumUpdate_lowByte]
  case busy => rw [exec_crcFeed, lockedWrite_busy s ((busy_eq_true_iff s).mpr hst), hostConflict]
  case read =>
    calc exec (.regRead 0x038) s
      _ = .next (hostRead (regOffset .crcFeed) s) := exec_regRead _ s
      _ = .next (regLoad .crcFeed s) := by rw [hostRead_regOffset hp]
      _ = .next (returnWord 0#32 s) := rfl

end Sys2Proof.Machine
end

section
/-!
The sender's chunks (spec/43_transmit.md): a TxByte in TX_PAYLOAD, which counts the byte and closes a chunk (R224), and
the pause after a chunk, which is exactly GAP ticks (R225).
-/

namespace Sys2Proof.Machine

/-! ### The counters as numbers -/

/-- The test for the payload's end, PROGRESS widened to the length's 34 bits. -/
theorem setWidth_eq_len34_iff (p : Word) (len : Len34) : p.setWidth 34 = len ↔ p.toNat = len.toNat := by
  rw [← BitVec.toNat_inj, BitVec.toNat_setWidth_of_le (by decide)]

theorem chunkFull_iff (n : BitVec 4) : n + 1#4 = BitVec.ofNat 4 Config.chunk ↔ n.toNat + 1 = 8 := by
  rw [Config.chunk]
  bv_omega

theorem sumUpdate_eq_ofNat (acc : Sum16) (b : Byte) : sumUpdate acc b = BitVec.ofNat 16 (acc.toNat + b.toNat) :=
  BitVec.eq_of_toNat_eq (by rw [sumUpdate_toNat, BitVec.toNat_ofNat])

/-- Below its ceiling TIMER counts without saturating. -/
theorem satInc_ofNat {n : Nat} (h : n + 1 < 2 ^ 32) : satInc (BitVec.ofNat 32 n) = BitVec.ofNat 32 (n + 1) := by
  apply BitVec.eq_of_toNat_eq
  rw [satInc_toNat, BitVec.toNat_ofNat, BitVec.toNat_ofNat]
  omega

/-! ### A payload byte passes -/

theorem txData_txPayload {s : State} (hst : s.st = .txPayload) : txData s = some (pbufByte s s.progress.toNat) := by
  simp [txData, hst]

theorem takeByte_txPayload {s : State} {b : Byte} (hst : s.st = .txPayload) (hd : txData s = some b) :
    takeByte b s = txPayloadSent b { s with link := { s.link with wire := s.link.wire ++ [b] } } := by
  simp [takeByte, txByte, hst, hd]

/-- The chunk controller with its counters as numbers, while PROGRESS does not wrap. -/
theorem txPayloadSent_eq (b : Byte) {s : State} (hprog : s.progress.toNat + 1 < 2 ^ 32) :
    txPayloadSent b s =
      (let t : State :=
        { s with
          acc := BitVec.ofNat 16 (s.acc.toNat + b.toNat), progress := BitVec.ofNat 32 (s.progress.toNat + 1) }
      if s.chunkCnt.toNat + 1 = 8 ∨ s.progress.toNat + 1 = s.len34.toNat then
        if s.settings.gap ≠ 0#32 then { t with chunkCnt := 0#4, st := .txGap, timer := 0#32 }
        else if s.progress.toNat + 1 = s.len34.toNat then { t with chunkCnt := 0#4, st := .txDrain, timer := 0#32 }
        else { t with chunkCnt := 0#4 }
      else { t with chunkCnt := BitVec.ofNat 4 (s.chunkCnt.toNat + 1) }) := by
  have hp : s.progress + 1#32 = BitVec.ofNat 32 (s.progress.toNat + 1) := by bv_omega
  have hc : BitVec.ofNat 4 (s.chunkCnt.toNat + 1) = s.chunkCnt + 1#4 := by bv_omega
  have hend : (BitVec.ofNat 32 (s.progress.toNat + 1)).setWidth 34 = s.len34 ↔
      s.progress.toNat + 1 = s.len34.toNat := by
    rw [setWidth_eq_len34_iff, BitVec.toNat_ofNat, Nat.mod_eq_of_lt hprog]
  simp only [txPayloadSent, feedAcc, sumUpdate_eq_ofNat, hp, hc, chunkFull_iff, beq_iff_eq, hend, enter]

/-- Settles O27: the byte offered is PBUF[PROGRESS], and its taking is the chunk controller's step. -/
theorem payloadByteSent : Obligations.PayloadByteSent := by
  unfold Obligations.PayloadByteSent
  intro s rest hscript hst _ _ hprog
  have hd := txData_txPayload hst
  refine ⟨pbufByte s s.progress.toNat, rfl, ?_⟩
  calc step s
    _ = .next (takeByte _ (passed rest s)) := step_tx hscript hd
    _ = .next (txPayloadSent _ (sent _ rest s)) := congrArg _ (takeByte_txPayload (s := passed rest s) hst hd)
    _ = _ := congrArg _ (txPayloadSent_eq _ (s := sent _ rest s) hprog)

/-! ### The pause -/

section
variable {s : State}

theorem txGapTick_running (h : s.timer.toNat < s.settings.gap.toNat) : txGapTick s = s :=
  if_neg (BitVec.not_le.mpr h)

theorem txGapTick_over (h : s.settings.gap.toNat ≤ s.timer.toNat) :
    txGapTick s =
      { s with st := if s.progress.toNat = s.len34.toNat then .txDrain else .txPayload, timer := 0#32 } := by
  have hover : s.timer ≥ s.settings.gap := h
  simp only [txGapTick, if_pos hover, setWidth_eq_len34_iff, enter]
  split <;> rfl

theorem tickStep_gap_counts (hst : s.st = .txGap) {n : Nat} (hn : n + 1 < 2 ^ 32) :
    tickStep { s with timer := BitVec.ofNat 32 n } = txGapTick { s with timer := BitVec.ofNat 32 (n + 1) } := by
  rw [← satInc_ofNat hn]
  exact tickStep_gap _ hst

/-- Ticks short of the pause's length are counted, and nothing else happens (R225). -/
theorem tickStep_iterate_gap (hst : s.st = .txGap) (htimer : s.timer = 0#32) {n : Nat}
    (hn : n < s.settings.gap.toNat) : tickStep^[n] s = { s with timer := BitVec.ofNat 32 n } := by
  have hgap := s.settings.gap.isLt
  induction n with
  | zero => rw [Function.iterate_zero_apply, ← htimer]
  | succ n ih =>
    have hlt : (BitVec.ofNat 32 (n + 1)).toNat < s.settings.gap.toNat := by
      rwa [BitVec.toNat_ofNat, Nat.mod_eq_of_lt (by omega)]
    rw [Function.iterate_succ_apply', ih (by omega), tickStep_gap_counts hst (by omega)]
    exact txGapTick_running hlt

end

/-- Settles O37: the last tick is the first at which TIMER, one more than the ticks before it, reaches GAP. -/
theorem gapLastsExactly : Obligations.GapLastsExactly := by
  unfold Obligations.GapLastsExactly
  intro s hst htimer hgap
  refine ⟨fun n hn => tickStep_iterate_gap hst htimer hn, ?_⟩
  have hlt := s.settings.gap.isLt
  obtain ⟨n, hn⟩ : ∃ n, s.settings.gap.toNat = n + 1 :=
    Nat.exists_eq_succ_of_ne_zero fun h => hgap (BitVec.eq_of_toNat_eq h)
  have hover : s.settings.gap.toNat ≤ (BitVec.ofNat 32 (n + 1)).toNat := by
    rw [BitVec.toNat_ofNat, Nat.mod_eq_of_lt (by omega), hn]
  rw [hn, Function.iterate_succ_apply', tickStep_iterate_gap hst htimer (by omega),
    tickStep_gap_counts hst (by omega)]
  exact txGapTick_over hover

end Sys2Proof.Machine
end

section
/-!
The command token (spec/43_transmit.md R232): a TxByte in TOK_SEND sends the token's byte at IDX, byte 4k+j being byte j
of TOKENk (R56), and the last one opens TOK_WAIT.
-/

namespace Sys2Proof.Machine

/-! ### The token's bytes -/

section
variable {w : Nat} (hi : BitVec w) (lo : Word)

theorem extractByte_append_low {j : Nat} (hj : j < 4) : (hi ++ lo).extractLsb' (8 * (4 * 0 + j)) 8 = byteOf lo j := by
  rw [BitVec.extractLsb'_append_eq_of_add_le (by omega), byteOf, Nat.mul_zero, Nat.zero_add]

theorem extractByte_append_high (k j : Nat) :
    (hi ++ lo).extractLsb' (8 * (4 * (k + 1) + j)) 8 = hi.extractLsb' (8 * (4 * k + j)) 8 := by
  rw [BitVec.extractLsb'_append_eq_of_le (by omega)]
  congr 1
  omega

end

/-- R56: byte 4k+j of the token is byte j of TOKENk. The words below TOKENk are dropped one by one. -/
theorem tokenByte_of_word {c : Settings} {k j : Nat} {tok : Word} (hj : j < 4)
    (h : [c.token0, c.token1, c.token2, c.token3][k]? = some tok) : tokenByte c (4 * k + j) = byteOf tok j := by
  unfold tokenByte
  match k, h with
  | 0, rfl => exact extractByte_append_low _ _ hj
  | 1, rfl => rw [extractByte_append_high _ _ 0, extractByte_append_low _ _ hj]
  | 2, rfl => rw [extractByte_append_high _ _ 1, extractByte_append_high _ _ 0, extractByte_append_low _ _ hj]
  | 3, rfl =>
    rw [extractByte_append_high _ _ 2, extractByte_append_high _ _ 1, extractByte_append_high _ _ 0, byteOf,
      Nat.mul_zero, Nat.zero_add]

theorem tokenByte_eq_ofNat {c : Settings} {i : Nat} {tok : Word}
    (h : [c.token0, c.token1, c.token2, c.token3][i / 4]? = some tok) :
    tokenByte c i = BitVec.ofNat 8 (tok.toNat / 256 ^ (i % 4)) := by
  have hbyte := tokenByte_of_word (Nat.mod_lt i (by decide)) h
  rwa [Nat.div_add_mod, byteOf_eq_ofNat] at hbyte

theorem txData_tokSend {s : State} (hst : s.st = .tokSend) : txData s = some (tokenByte s.settings s.idx.toNat) := by
  simp [txData, hst]

theorem takeByte_tokSend {s : State} {b : Byte} (hst : s.st = .tokSend) (hd : txData s = some b) :
    takeByte b s = tokenSent { s with link := { s.link with wire := s.link.wire ++ [b] } } := by
  simpa [hst, hd] using takeByte_cases s b _ rfl

/-- IDX is counted before it is compared with the token's length, so the byte before that length is the last. -/
theorem tokenSent_eq {s : State} (hidx : s.idx.toNat < s.settings.tokenLen.toNat) :
    tokenSent s =
      (let t : State := { s with progress := s.progress + 1#32 }
      if s.idx.toNat + 1 = s.settings.tokenLen.toNat then { t with st := .tokWait, idx := 0#5, timer := 0#32 }
      else { t with idx := s.idx + 1#5 }) := by
  have hlast : s.idx + 1#5 = s.settings.tokenLen ↔ s.idx.toNat + 1 = s.settings.tokenLen.toNat := by bv_omega
  simp only [tokenSent, hlast, enter]

/-- Settles O29: the byte offered is the token's byte at IDX, and its taking is the rule of TOK_SEND. -/
theorem tokenBytesSent : Obligations.TokenBytesSent := by
  unfold Obligations.TokenBytesSent
  intro s rest tok hscript hst hidx htok
  rw [← tokenByte_eq_ofNat htok]
  have hd := txData_tokSend hst
  calc step s
    _ = .next (takeByte _ (passed rest s)) := step_tx hscript hd
    _ = .next (tokenSent (sent _ rest s)) := congrArg _ (takeByte_tokSend (s := passed rest s) hst hd)
    _ = _ := congrArg _ (tokenSent_eq (s := sent _ rest s) hidx)

end Sys2Proof.Machine
end

section
/-!
Leaving IDLE (spec/60_exceptions.md R318): of all that may happen in IDLE, only a transfer command starts a transfer
(spec/40_engine.md R144), and with the link closed its start aborts and IDLE stays (R146).
-/

namespace Sys2Proof.Machine

/-! ### Commands -/

theorem startSendData_closed_st {s : State} (hlink : s.link.linkOpen = false) : (startSendData s).st = .idle := by
  simp [startSendData, hlink]

theorem startRecvData_closed_st {s : State} (hlink : s.link.linkOpen = false) : (startRecvData s).st = .idle := by
  simp [startRecvData, hlink]

theorem startSendToken_closed_st {s : State} (hlink : s.link.linkOpen = false) : (startSendToken s).st = .idle := by
  simp [startSendToken, hlink]

theorem acceptCommand_keeps_idle {start : State → State} {s : State} (hst : s.st = .idle)
    (hstart : (start s).st = .idle) : (acceptCommand start s).st = .idle := by
  rwa [acceptCommand_idle s ((busy_eq_false_iff s).mpr hst)]

/-- Whatever the opcode, a write to CMD with the link closed starts nothing (R146). -/
theorem commandWrite_closed_st (v : Word) {s : State} (hst : s.st = .idle) (hlink : s.link.linkOpen = false) :
    (commandWrite v s).st = .idle := by
  unfold commandWrite
  split
  · exact hst
  · exact acceptCommand_keeps_idle hst (startSendData_closed_st hlink)
  · exact acceptCommand_keeps_idle hst (startRecvData_closed_st hlink)
  · exact acceptCommand_keeps_idle hst (startSendToken_closed_st hlink)
  · exact acceptCommand_keeps_idle hst hst
  · exact hst

/-! ### The other host accesses -/

theorem lockedWrite_keeps_idle {f : State → State} {s : State} (hst : s.st = .idle) (hf : (f s).st = .idle) :
    (lockedWrite f s).st = .idle := by
  rwa [lockedWrite_idle s ((busy_eq_false_iff s).mpr hst)]

theorem clearRecord_st (s : State) : (clearRecord s).st = s.st := by
  rcases clearRecord_cases s with ⟨-, h⟩ | ⟨-, h⟩ <;> rw [h]

theorem cancelTransfer_keeps_idle {s : State} (hst : s.st = .idle) : (cancelTransfer s).st = .idle := by
  rwa [cancelTransfer_idle s ((busy_eq_false_iff s).mpr hst)]

theorem ctrlWrite_keeps_idle (cancel clear : Bool) {s : State} (hst : s.st = .idle) :
    (ctrlWrite cancel clear s).st = .idle := by
  have hclear : (if clear then clearRecord s else s).st = .idle := by
    split
    · rwa [clearRecord_st]
    · exact hst
  cases cancel with
  | false => exact hclear
  | true => exact cancelTransfer_keeps_idle hclear

theorem crcFeedWrite_keeps_idle (v : Word) {s : State} (hst : s.st = .idle) : (crcFeedWrite v s).st = .idle :=
  lockedWrite_keeps_idle hst hst

theorem memWrite_st (off : Nat) (v : Word) (n : Nat) (s : State) : (memWrite off v n s).st = s.st := by
  rw [memWrite_frame]

theorem elemDataWrite_keeps_idle (v : Word) {s : State} (hst : s.st = .idle) : (elemDataWrite v s).st = .idle := by
  refine lockedWrite_keeps_idle hst ?_
  unfold elemStore
  split
  · rwa [memWrite_st]
  · exact hst

theorem elemDataRead_st (s : State) : (elemDataRead s).st = s.st := by
  obtain ⟨v, h | h⟩ := elemDataRead_frame s <;> simp [h]

theorem windowRead_st (k : Nat) (s : State) : (windowRead k s).st = s.st := by
  obtain ⟨v, h⟩ := windowRead_frame s k
  simp [h]

theorem windowWrite_keeps_idle (k : Nat) (v : Word) {s : State} (hst : s.st = .idle) :
    (windowWrite k v s).st = .idle := by
  unfold windowWrite
  split
  · exact lockedWrite_keeps_idle hst (by rwa [memWrite_st])
  · exact hst

theorem hostRead_st (off : Nat) (s : State) : (hostRead off s).st = s.st := by
  obtain ⟨v, h | h⟩ := hostRead_frame s off <;> simp [h]

/-- A register write in IDLE starts nothing, unless it writes CMD with the link open. -/
theorem regStore_keeps_idle {r : Reg} (v : Word) {s : State} (hst : s.st = .idle)
    (hlink : r = .cmd → s.link.linkOpen = false) : (regStore r v s).st = .idle := by
  cases r with
  | ctrl => exact ctrlWrite_keeps_idle _ _ hst
  | cmd => exact commandWrite_closed_st v hst (hlink rfl)
  | crcFeed => exact crcFeedWrite_keeps_idle v hst
  | elemData => exact elemDataWrite_keeps_idle v hst
  | txFmt | txTag | txCount | readyDl | ackDl | syncDl | byteDl | gap | cfg | tokenLen | token0 | token1 | token2
  | token3 => exact lockedWrite_keeps_idle hst hst
  | elemFmt | elemIdx | status | rxFmt | rxTag | rxCount | len | lenHi | progress | timer | crcAcc | crcRx
  | pbufSize => exact hst

theorem hostWrite_keeps_idle {off : Nat} (v : Word) {s : State} (hst : s.st = .idle)
    (hlink : off = 0x004 → s.link.linkOpen = false) : (hostWrite off v s).st = .idle := by
  unfold hostWrite
  split
  · exact windowWrite_keeps_idle _ v hst
  · split
    case h_1 r hr =>
      refine regStore_keeps_idle v hst (fun hcmd => hlink ?_)
      rw [← regOffset_of_regAt hr, hcmd]
      rfl
    case h_2 => exact hst

/-! ### Bytes and EDLINK's own events: the state register's table gives IDLE none of them (R31, R143) -/

theorem offerByte_keeps_idle (b : Byte) {s : State} (hst : s.st = .idle) : (offerByte b s).st = .idle := by
  simp [offerByte, rxReady, hst]

theorem takeByte_keeps_idle (b : Byte) {s : State} (hst : s.st = .idle) : (takeByte b s).st = .idle := by
  simp [takeByte, txData, hst]

theorem passFormatByte_keeps_idle (b : Byte) {s : State} (hst : s.st = .idle) :
    (passFormatByte b s).st = .idle := by
  unfold passFormatByte
  split
  · exact takeByte_keeps_idle b hst
  · exact offerByte_keeps_idle b hst

theorem drainStep_idle {s : State} (hst : s.st = .idle) : drainStep s = s := if_neg (by simp [hst])

theorem internalStep_idle {s : State} (hst : s.st = .idle) : internalStep s = s := if_neg (by simp [hst])

/-! ### The step -/

/-- The instruction may start a transfer: a transfer command, or a plain write to CMD, which no access decodes to. -/
def mayStartTransfer : Instr → Bool
  | .sendData _ | .recvData _ | .sendToken _ => true
  | .regWrite off _ => off == 0x004
  | _ => false

/-- An instruction keeps IDLE, unless it may start a transfer and the link is open. -/
theorem exec_keeps_idle {i : Instr} {s t : State} (hst : s.st = .idle)
    (hlink : mayStartTransfer i = true → s.link.linkOpen = false) (h : exec i s = .next t) : t.st = .idle := by
  suffices hk : ∃ u, exec i s = .next u ∧ u.st = .idle by
    obtain ⟨u, hu, hk⟩ := hk
    rwa [Host.Outcome.next.inj (h.symm.trans hu)]
  cases i with
  | nop => exact ⟨_, rfl, hst⟩
  | sendData => exact ⟨_, rfl, acceptCommand_keeps_idle hst (startSendData_closed_st (hlink rfl))⟩
  | recvData => exact ⟨_, rfl, acceptCommand_keeps_idle hst (startRecvData_closed_st (hlink rfl))⟩
  | sendToken => exact ⟨_, rfl, acceptCommand_keeps_idle hst (startSendToken_closed_st (hlink rfl))⟩
  | crcInit => exact ⟨_, rfl, acceptCommand_keeps_idle hst hst⟩
  | reserved05 | reserved06 | reserved08 | reserved10 | reserved20 | reserved40 | reserved80 => exact ⟨_, rfl, hst⟩
  | cancel | clear => exact ⟨_, rfl, ctrlWrite_keeps_idle _ _ hst⟩
  | crcFeed v => exact ⟨_, rfl, crcFeedWrite_keeps_idle v hst⟩
  | elemRead => exact ⟨_, rfl, (elemDataRead_st s).trans hst⟩
  | elemWrite v => exact ⟨_, rfl, elemDataWrite_keeps_idle v hst⟩
  | winRead k => exact ⟨_, rfl, (windowRead_st k s).trans hst⟩
  | winWrite k v => exact ⟨_, rfl, windowWrite_keeps_idle k v hst⟩
  | regRead off => exact ⟨_, rfl, (hostRead_st off s).trans hst⟩
  | regWrite off v => exact ⟨_, rfl, hostWrite_keeps_idle v hst (by simpa [mayStartTransfer] using hlink)⟩
  | syncOut | readyOut | ackOut => exact ⟨_, rfl, takeByte_keeps_idle _ hst⟩
  | syncIn | readyIn | ackIn => exact ⟨_, rfl, offerByte_keeps_idle _ hst⟩
  | fmtUint8 | fmtInt8 | fmtUint16 | fmtInt16 | fmtUint32 | fmtInt32 =>
    exact ⟨_, rfl, passFormatByte_keeps_idle _ hst⟩

/-- The opcodes of the transfer commands are 1, 2 and 3 (R110). -/
theorem opcode_of_mayStartTransfer {v : Word} (h : mayStartTransfer (decodeCmd v) = true) :
    1 ≤ v.toNat % 256 ∧ v.toNat % 256 ≤ 3 := by
  have hop : (v.extractLsb' 0 8).toNat = v.toNat % 256 := by simp
  rw [← hop]
  simp only [decodeCmd, apply_ite mayStartTransfer] at h
  simp only [mayStartTransfer, ite_self] at h
  split_ifs at h with hnop hsend hrecv htoken
  · rw [hsend]
    decide
  · rw [hrecv]
    decide
  · rw [htoken]
    decide

theorem mayStartTransfer_decodeHostWrite (p : Params) {off : Nat} (v : Word) (hoff : off ≠ 0x004) :
    mayStartTransfer (decodeHostWrite p off v) = false := by
  have hplain : mayStartTransfer (.regWrite off v) = false := by simpa [mayStartTransfer] using hoff
  unfold decodeHostWrite
  rw [if_neg hoff]
  split_ifs
  · rfl
  · rfl
  · exact hplain
  · rfl
  · rfl
  · cases windowIndex p off with
    | none => exact hplain
    | some k => rfl

/-- A host write that may start a transfer goes to CMD, and its opcode is a transfer command's. -/
theorem cmdWrite_of_mayStartTransfer {p : Params} {off : Nat} {v : Word}
    (h : mayStartTransfer (decodeHostWrite p off v) = true) :
    off = 0x004 ∧ 1 ≤ v.toNat % 256 ∧ v.toNat % 256 ≤ 3 := by
  by_cases hoff : off = 0x004
  · subst hoff
    exact ⟨rfl, opcode_of_mayStartTransfer h⟩
  · simp [mayStartTransfer_decodeHostWrite p v hoff] at h

theorem mayStartTransfer_decodeHostRead (p : Params) (off : Nat) :
    mayStartTransfer (decodeHostRead p off) = false := by
  unfold decodeHostRead
  split
  · rfl
  · split <;> rfl

/-- Settles O52: in IDLE every event but a host write keeps IDLE, and a host write keeps it unless it is a transfer
command with the link open. -/
theorem idleLeftByCommandOnly : Obligations.IdleLeftByCommandOnly := by
  unfold Obligations.IdleLeftByCommandOnly
  intro s t hst hstep hleft
  rcases step_cases hstep with ⟨-, rfl⟩ | ⟨off, v, rest, hs, hexec⟩ | ⟨off, rest, -, hexec⟩ | ⟨rest, -, -, rfl⟩ |
    ⟨b, more, rest, -, -, rfl⟩ | ⟨rest, -, -, rfl⟩ | ⟨b, rest, -, -, rfl⟩ | ⟨rest, -, rfl⟩ | ⟨rest, -, rfl⟩ |
    ⟨rest, -, rfl⟩ | ⟨rest, -, rfl⟩ | ⟨rest, -, rfl⟩ | ⟨b, rest, -, rfl⟩ | ⟨isOpen, rest, -, rfl⟩
  case inr.inl =>
    have hstart : mayStartTransfer (decodeHostWrite s.params off v) = true ∧ s.link.linkOpen = true := by
      by_contra hno
      exact hleft (exec_keeps_idle (s := passed rest s) hst (by simpa [passed] using hno) hexec)
    obtain ⟨hmay, hlink⟩ := hstart
    obtain ⟨rfl, hopcode⟩ := cmdWrite_of_mayStartTransfer hmay
    exact ⟨hlink, v, rest, hs, hopcode⟩
  all_goals refine absurd ?_ hleft
  · rwa [internalStep_idle hst]
  · have hread := mayStartTransfer_decodeHostRead s.params off
    exact exec_keeps_idle (s := passed rest s) hst (by simp [hread]) hexec
  · exact hst
  · exact offerByte_keeps_idle b (s := handedOver more rest s) hst
  · exact hst
  · exact takeByte_keeps_idle b (s := passed rest s) hst
  · rwa [drainStep_idle (s := passed rest s) hst]
  · rwa [tickStep_idle (passed rest s) hst]
  · rwa [internalStep_idle (s := passed rest s) hst]
  · rfl
  · rfl
  · exact hst
  · exact hst

end Sys2Proof.Machine
end

section
/-!
The encoding of the opcode table's rows (spec/30_encoding.md section 5): decode reads back what encode writes, encode
writes back the access that was decoded, and the row an access decodes to does what the register map (spec/10_state.md
R38) says of its offset.
-/

namespace Sys2Proof

/-! ### Fields of a CMD value -/

/-- The number of a concatenation: the low part's bits stand below the high part's. -/
theorem append_toNat {m k : Nat} (x : BitVec m) (low : BitVec k) : (x ++ low).toNat = 2 ^ k * x.toNat + low.toNat := by
  rw [BitVec.toNat_append, ← Nat.shiftLeft_add_eq_or_of_lt low.isLt, Nat.shiftLeft_eq, Nat.mul_comm]

theorem toNat_ofNat_append {m k n : Nat} (hn : n < 2 ^ m) (low : BitVec k) :
    (BitVec.ofNat m n ++ low).toNat = 2 ^ k * n + low.toNat := by
  rw [append_toNat, BitVec.toNat_ofNat, Nat.mod_eq_of_lt hn]

theorem extractLsb'_append_low {m k : Nat} (x : BitVec m) (low : BitVec k) : (x ++ low).extractLsb' 0 k = low :=
  BitVec.extractLsb'_append_eq_right

theorem cmdValue_opcode (op : Byte) (hi : BitVec 24) : (cmdValue op hi).extractLsb' 0 8 = op :=
  extractLsb'_append_low hi op

theorem cmdValue_ignored (op : Byte) (hi : BitVec 24) : (cmdValue op hi).extractLsb' 8 24 = hi :=
  BitVec.extractLsb'_append_eq_left

theorem cmdValue_fields (v : Word) : cmdValue (v.extractLsb' 0 8) (v.extractLsb' 8 24) = v :=
  (BitVec.extractLsb'_append_extractLsb'_eq_extractLsb' (by decide)).trans (by simp)

/-- The match and mask of five reserved rows (R111) as ranges of the opcode's number. -/
theorem reservedRow_iff : ∀ op : Byte,
    (op &&& 0xFE#8 = 0x06#8 ↔ 6 ≤ op.toNat ∧ op.toNat < 8) ∧
    (op &&& 0xF8#8 = 0x08#8 ↔ 8 ≤ op.toNat ∧ op.toNat < 16) ∧
    (op &&& 0xF0#8 = 0x10#8 ↔ 16 ≤ op.toNat ∧ op.toNat < 32) ∧
    (op &&& 0xE0#8 = 0x20#8 ↔ 32 ≤ op.toNat ∧ op.toNat < 64) ∧
    (op &&& 0xC0#8 = 0x40#8 ↔ 64 ≤ op.toNat ∧ op.toNat < 128) := by decide

/-- The row of a CMD value by the opcode's number (R110, R111). -/
theorem decodeCmd_eq (op : Byte) (hi : BitVec 24) : decodeCmd (cmdValue op hi) =
    if op.toNat = 0 then .nop hi else if op.toNat = 1 then .sendData hi else if op.toNat = 2 then .recvData hi
    else if op.toNat = 3 then .sendToken hi else if op.toNat = 4 then .crcInit hi
    else if op.toNat = 5 then .reserved05 hi
    else if 6 ≤ op.toNat ∧ op.toNat < 8 then .reserved06 (op.extractLsb' 0 1) hi
    else if 8 ≤ op.toNat ∧ op.toNat < 16 then .reserved08 (op.extractLsb' 0 3) hi
    else if 16 ≤ op.toNat ∧ op.toNat < 32 then .reserved10 (op.extractLsb' 0 4) hi
    else if 32 ≤ op.toNat ∧ op.toNat < 64 then .reserved20 (op.extractLsb' 0 5) hi
    else if 64 ≤ op.toNat ∧ op.toNat < 128 then .reserved40 (op.extractLsb' 0 6) hi
    else .reserved80 (op.extractLsb' 0 7) hi := by
  obtain ⟨h6, h8, h10, h20, h40⟩ := reservedRow_iff op
  simp only [decodeCmd, cmdValue_opcode, cmdValue_ignored, h6, h8, h10, h20, h40, ← BitVec.toNat_inj,
    BitVec.toNat_ofNat]

/-! ### One rule per kind of row: decode reads back what encode writes -/

theorem decode_cmdWord (p : Params) (op : Byte) (hi : BitVec 24) :
    decode p (cmdWord op hi) = .instr (decodeCmd (cmdValue op hi)) := by
  simp [decode, cmdWord, bytesOfWord]

section
variable (hi : BitVec 24)

theorem decodeCmd_reserved06 (low : BitVec 1) :
    decodeCmd (cmdValue (0b0000011#7 ++ low) hi) = .reserved06 low hi := by
  have hlow := low.isLt
  have hop : (0b0000011#7 ++ low).toNat = 2 ^ 1 * 3 + low.toNat := toNat_ofNat_append (by decide) low
  simp (disch := omega) only [decodeCmd_eq, if_pos, if_neg, extractLsb'_append_low]

theorem decodeCmd_reserved08 (low : BitVec 3) : decodeCmd (cmdValue (0b00001#5 ++ low) hi) = .reserved08 low hi := by
  have hlow := low.isLt
  have hop : (0b00001#5 ++ low).toNat = 2 ^ 3 * 1 + low.toNat := toNat_ofNat_append (by decide) low
  simp (disch := omega) only [decodeCmd_eq, if_pos, if_neg, extractLsb'_append_low]

theorem decodeCmd_reserved10 (low : BitVec 4) : decodeCmd (cmdValue (0b0001#4 ++ low) hi) = .reserved10 low hi := by
  have hlow := low.isLt
  have hop : (0b0001#4 ++ low).toNat = 2 ^ 4 * 1 + low.toNat := toNat_ofNat_append (by decide) low
  simp (disch := omega) only [decodeCmd_eq, if_pos, if_neg, extractLsb'_append_low]

theorem decodeCmd_reserved20 (low : BitVec 5) : decodeCmd (cmdValue (0b001#3 ++ low) hi) = .reserved20 low hi := by
  have hlow := low.isLt
  have hop : (0b001#3 ++ low).toNat = 2 ^ 5 * 1 + low.toNat := toNat_ofNat_append (by decide) low
  simp (disch := omega) only [decodeCmd_eq, if_pos, if_neg, extractLsb'_append_low]

theorem decodeCmd_reserved40 (low : BitVec 6) : decodeCmd (cmdValue (0b01#2 ++ low) hi) = .reserved40 low hi := by
  have hlow := low.isLt
  have hop : (0b01#2 ++ low).toNat = 2 ^ 6 * 1 + low.toNat := toNat_ofNat_append (by decide) low
  simp (disch := omega) only [decodeCmd_eq, if_pos, if_neg, extractLsb'_append_low]

theorem decodeCmd_reserved80 (low : BitVec 7) : decodeCmd (cmdValue (0b1#1 ++ low) hi) = .reserved80 low hi := by
  have hlow := low.isLt
  have hop : (0b1#1 ++ low).toNat = 2 ^ 7 * 1 + low.toNat := toNat_ofNat_append (by decide) low
  simp (disch := omega) only [decodeCmd_eq, if_neg, extractLsb'_append_low]

end

theorem ctrlValue_cancelBit (low : BitVec 2) (hi : BitVec 30) :
    (ctrlValue low hi).getLsbD 0 = low.getLsbD 0 := by
  rw [ctrlValue, BitVec.getLsbD_append, if_pos (by decide)]

theorem ctrlValue_clearBit (low : BitVec 2) (hi : BitVec 30) :
    (ctrlValue low hi).getLsbD 1 = low.getLsbD 1 := by
  rw [ctrlValue, BitVec.getLsbD_append, if_pos (by decide)]

/-- A CTRL write by its two command bits: CANCEL where bit 0 is set, else CLEAR where bit 1 is (R155, R156). -/
theorem decodeHostWrite_ctrl (p : Params) (low : BitVec 2) (hi : BitVec 30) :
    decodeHostWrite p 0x000 (ctrlValue low hi) =
      if low.getLsbD 0 then .cancel (low.getLsbD 1) hi else if low.getLsbD 1 then .clear hi
      else .regWrite 0x000 (ctrlValue low hi) := by
  have hhi : (ctrlValue low hi).extractLsb' 2 30 = hi := BitVec.extractLsb'_append_eq_left
  simp only [decodeHostWrite, if_pos, ctrlValue_cancelBit, ctrlValue_clearBit, hhi]

theorem decodeHostWrite_cancel (p : Params) (clr : Bool) (hi : BitVec 30) :
    decodeHostWrite p 0x000 (ctrlValue (BitVec.ofBool clr ++ 1#1) hi) = .cancel clr hi := by
  rw [decodeHostWrite_ctrl]
  cases clr <;> rfl

theorem decodeHostWrite_clear (p : Params) (hi : BitVec 30) :
    decodeHostWrite p 0x000 (ctrlValue 0b10#2 hi) = .clear hi := decodeHostWrite_ctrl p 0b10#2 hi

theorem decodeHostWrite_window {p : Params} {k : Nat} (hp : p.wf) (hk : 4 * k + 4 ≤ p.pbufBytes) (v : Word) :
    decodeHostWrite p (windowOffset k) v = .winWrite k v := by
  have hbase : 0x1000 ≤ windowOffset k := Nat.le_add_right _ _
  rw [decodeHostWrite, if_neg (by omega), if_neg (by omega), if_neg (by omega), if_neg (by omega),
    windowIndex_windowOffset hp hk]

theorem decodeHostRead_window {p : Params} {k : Nat} (hp : p.wf) (hk : 4 * k + 4 ≤ p.pbufBytes) :
    decodeHostRead p (windowOffset k) = .winRead k := by
  have hbase : 0x1000 ≤ windowOffset k := Nat.le_add_right _ _
  rw [decodeHostRead, if_neg (by omega), windowIndex_windowOffset hp hk]

/-- A well-formed REG_WRITE is at none of the offsets that have a row of their own. -/
theorem decodeHostWrite_other {p : Params} {off : Nat} {v : Word} (h : wellFormed p (.regWrite off v) = true) :
    decodeHostWrite p off v = .regWrite off v := by
  simp only [wellFormed, inWindow_eq_isSome, Bool.and_eq_true, Bool.or_eq_true, bne_iff_ne, Bool.not_eq_true',
    Option.isSome_eq_false_iff, Option.isNone_iff_eq_none] at h
  obtain ⟨⟨⟨⟨hcmd, hfeed⟩, helem⟩, hwin⟩, hctrl⟩ := h
  rw [decodeHostWrite, if_neg hcmd, if_neg hfeed, if_neg helem, hwin]
  split_ifs with h0 hcancel hclear
  · exact absurd hcancel (by rw [(hctrl.resolve_left (not_not.mpr h0)).1]; decide)
  · exact absurd hclear (by rw [(hctrl.resolve_left (not_not.mpr h0)).2]; decide)
  · rfl
  · rfl

theorem decodeHostRead_other {p : Params} {off : Nat} (h : wellFormed p (.regRead off) = true) :
    decodeHostRead p off = .regRead off := by
  simp only [wellFormed, inWindow_eq_isSome, Bool.and_eq_true, bne_iff_ne, Bool.not_eq_true',
    Option.isSome_eq_false_iff, Option.isNone_iff_eq_none] at h
  obtain ⟨helem, hwin⟩ := h
  rw [decodeHostRead, if_neg helem, hwin]

/-- A format byte of a code of the table decodes to that code's row, with its flags (R104). -/
theorem decodeFormatByte_formatByte : ∀ flags : BitVec 2,
    decodeFormatByte (formatByte flags 0#4) = .instr (.fmtUint8 flags) ∧
    decodeFormatByte (formatByte flags 1#4) = .instr (.fmtInt8 flags) ∧
    decodeFormatByte (formatByte flags 2#4) = .instr (.fmtUint16 flags) ∧
    decodeFormatByte (formatByte flags 3#4) = .instr (.fmtInt16 flags) ∧
    decodeFormatByte (formatByte flags 4#4) = .instr (.fmtUint32 flags) ∧
    decodeFormatByte (formatByte flags 5#4) = .instr (.fmtInt32 flags) := by decide

/-! ### Encode writes back the access that was decoded -/

/-- Every opcode is one of the first six or begins with the bits of a reserved row (R110, R111). -/
theorem opcode_row (op : Byte) :
    op ∈ [0x00#8, 0x01#8, 0x02#8, 0x03#8, 0x04#8, 0x05#8] ∨ (∃ low : BitVec 1, op = 0b0000011#7 ++ low) ∨
    (∃ low : BitVec 3, op = 0b00001#5 ++ low) ∨ (∃ low : BitVec 4, op = 0b0001#4 ++ low) ∨
    (∃ low : BitVec 5, op = 0b001#3 ++ low) ∨ (∃ low : BitVec 6, op = 0b01#2 ++ low) ∨
    (∃ low : BitVec 7, op = 0b1#1 ++ low) := by
  have key : ∀ op : Byte, op ∈ [0x00#8, 0x01#8, 0x02#8, 0x03#8, 0x04#8, 0x05#8] ∨
      op = 0b0000011#7 ++ op.extractLsb' 0 1 ∨ op = 0b00001#5 ++ op.extractLsb' 0 3 ∨
      op = 0b0001#4 ++ op.extractLsb' 0 4 ∨ op = 0b001#3 ++ op.extractLsb' 0 5 ∨
      op = 0b01#2 ++ op.extractLsb' 0 6 ∨ op = 0b1#1 ++ op.extractLsb' 0 7 := by decide
  exact (key op).imp id (.imp (⟨_, ·⟩) (.imp (⟨_, ·⟩) (.imp (⟨_, ·⟩) (.imp (⟨_, ·⟩) (.imp (⟨_, ·⟩) (⟨_, ·⟩))))))

theorem encode_decodeCmd (v : Word) : encode (decodeCmd v) = ⟨.cmd, bytesOfWord v⟩ := by
  obtain ⟨op, hi, rfl⟩ : ∃ op hi, v = cmdValue op hi := ⟨_, _, (cmdValue_fields v).symm⟩
  rcases opcode_row op with hop | ⟨low, rfl⟩ | ⟨low, rfl⟩ | ⟨low, rfl⟩ | ⟨low, rfl⟩ | ⟨low, rfl⟩ | ⟨low, rfl⟩
  · simp only [List.mem_cons, List.not_mem_nil, or_false] at hop
    rw [decodeCmd_eq]
    obtain rfl | rfl | rfl | rfl | rfl | rfl := hop <;> rfl
  · rw [decodeCmd_reserved06, encode, cmdWord]
  · rw [decodeCmd_reserved08, encode, cmdWord]
  · rw [decodeCmd_reserved10, encode, cmdWord]
  · rw [decodeCmd_reserved20, encode, cmdWord]
  · rw [decodeCmd_reserved40, encode, cmdWord]
  · rw [decodeCmd_reserved80, encode, cmdWord]

theorem wellFormed_decodeCmd (p : Params) (v : Word) : wellFormed p (decodeCmd v) = true := by
  simp only [decodeCmd, apply_ite (wellFormed p)]
  simp only [wellFormed, ite_self]

theorem ctrlValue_fields (v : Word) : ctrlValue (v.extractLsb' 0 2) (v.extractLsb' 2 30) = v :=
  (BitVec.extractLsb'_append_extractLsb'_eq_extractLsb' (by decide)).trans (by simp)

theorem bits2_cases : ∀ low : BitVec 2, low = 0b00#2 ∨ low = 0b01#2 ∨ low = 0b10#2 ∨ low = 0b11#2 := by decide

/-- The offset of a window word is the access's offset (R72). -/
theorem windowOffset_of_windowIndex {p : Params} {off k : Nat} (h : windowIndex p off = some k) :
    windowOffset k = off := (windowIndex_some h).1.symm

theorem window_word_fits {p : Params} {off k : Nat} (hp : p.wf) (h : windowIndex p off = some k) :
    4 * k + 4 ≤ p.pbufBytes := by
  have hk := (windowIndex_some h).2
  have hmod := hp.1
  omega

theorem encode_decodeHostWrite (p : Params) (off : Nat) (v : Word) :
    encode (decodeHostWrite p off v) = if off = 0x004 then ⟨.cmd, bytesOfWord v⟩ else writeWord off v := by
  by_cases hctrl : off = 0x000
  · subst hctrl
    obtain ⟨low, hi, rfl⟩ : ∃ low hi, v = ctrlValue low hi := ⟨_, _, (ctrlValue_fields v).symm⟩
    rw [decodeHostWrite_ctrl]
    obtain rfl | rfl | rfl | rfl := bits2_cases low <;> rfl
  · rw [decodeHostWrite, if_neg hctrl]
    split_ifs with hcmd hfeed helem
    · exact encode_decodeCmd v
    · rw [hfeed, encode]
    · rw [helem, encode]
    · cases hwin : windowIndex p off with
      | none => rfl
      | some k => rw [← windowOffset_of_windowIndex hwin, encode]

theorem encode_decodeHostRead (p : Params) (off : Nat) : encode (decodeHostRead p off) = readWord off := by
  rw [decodeHostRead]
  split_ifs with helem
  · rw [helem, encode]
  · cases hwin : windowIndex p off with
    | none => rfl
    | some k => rw [← windowOffset_of_windowIndex hwin, encode]

theorem wellFormed_decodeHostWrite {p : Params} (hp : p.wf) (off : Nat) (v : Word) :
    wellFormed p (decodeHostWrite p off v) = true := by
  by_cases hctrl : off = 0x000
  · subst hctrl
    obtain ⟨low, hi, rfl⟩ : ∃ low hi, v = ctrlValue low hi := ⟨_, _, (ctrlValue_fields v).symm⟩
    rw [decodeHostWrite_ctrl]
    obtain rfl | rfl | rfl | rfl := bits2_cases low
    · have hlow : (0x000 : Nat) < 0x1000 := by decide
      simp [-BitVec.getLsbD_eq_getElem, wellFormed, inWindow_eq_isSome, windowIndex_low _ _ hlow,
        ctrlValue_cancelBit, ctrlValue_clearBit]
    all_goals rfl
  · rw [decodeHostWrite, if_neg hctrl]
    split_ifs with hcmd hfeed helem
    · exact wellFormed_decodeCmd p v
    · rfl
    · rfl
    · cases hwin : windowIndex p off with
      | none => simp [wellFormed, inWindow_eq_isSome, hwin, hcmd, hfeed, helem, hctrl]
      | some k => simpa [wellFormed] using window_word_fits hp hwin

theorem wellFormed_decodeHostRead {p : Params} (hp : p.wf) (off : Nat) :
    wellFormed p (decodeHostRead p off) = true := by
  rw [decodeHostRead]
  split_ifs with helem
  · rfl
  · cases hwin : windowIndex p off with
    | none => simp [wellFormed, inWindow_eq_isSome, hwin, helem]
    | some k => simpa [wellFormed] using window_word_fits hp hwin

end Sys2Proof

namespace Sys2Proof.Machine

/-- Settles O44: row by row, each kind of word by its own rule. -/
theorem decodeEncode : Obligations.DecodeEncode := by
  unfold Obligations.DecodeEncode
  intro p i hp hi
  cases i with
  | nop hi | sendData hi | recvData hi | sendToken hi | crcInit hi | reserved05 hi =>
    rw [encode, decode_cmdWord, decodeCmd_eq]
    rfl
  | reserved06 low hi => rw [encode, decode_cmdWord, decodeCmd_reserved06]
  | reserved08 low hi => rw [encode, decode_cmdWord, decodeCmd_reserved08]
  | reserved10 low hi => rw [encode, decode_cmdWord, decodeCmd_reserved10]
  | reserved20 low hi => rw [encode, decode_cmdWord, decodeCmd_reserved20]
  | reserved40 low hi => rw [encode, decode_cmdWord, decodeCmd_reserved40]
  | reserved80 low hi => rw [encode, decode_cmdWord, decodeCmd_reserved80]
  | cancel clr hi => rw [encode, decode_writeWord, decodeHostWrite_cancel]
  | clear hi => rw [encode, decode_writeWord, decodeHostWrite_clear]
  | crcFeed v | elemWrite v =>
    rw [encode, decode_writeWord]
    rfl
  | elemRead =>
    rw [encode, decode_readWord]
    rfl
  | winRead k => rw [encode, decode_readWord, decodeHostRead_window hp (by simpa [wellFormed] using hi)]
  | winWrite k v => rw [encode, decode_writeWord, decodeHostWrite_window hp (by simpa [wellFormed] using hi)]
  | regRead off => rw [encode, decode_readWord, decodeHostRead_other hi]
  | regWrite off v => rw [encode, decode_writeWord, decodeHostWrite_other hi]
  | syncOut | syncIn | readyOut | readyIn | ackOut | ackIn => rfl
  | fmtUint8 flags | fmtInt8 flags | fmtUint16 flags | fmtInt16 flags | fmtUint32 flags | fmtInt32 flags =>
    simp only [encode, decode, decodeFormatByte_formatByte flags]

/-- Settles O45: the encoder answers the access, and what the decoder gives is well formed. -/
theorem encodeDecodedAccess : Obligations.EncodeDecodedAccess := by
  unfold Obligations.EncodeDecodedAccess
  intro p off v hp
  exact ⟨encode_decodeHostWrite p off v, encode_decodeHostRead p off, wellFormed_decodeHostWrite hp off v,
    wellFormed_decodeHostRead hp off⟩

/-! ### The rows and the register map -/

/-- A register lies below the window, so a write to its offset stores it (R38). -/
theorem hostWrite_regOffset {s : State} (hp : s.params.wf) (r : Reg) (v : Word) :
    hostWrite (regOffset r) v s = regStore r v s := by
  rw [hostWrite, windowIndex_low _ _ (regOffset_lt_window r), regAt_regOffset _ hp]

theorem exec_regWrite (off : Nat) (v : Word) (s : State) : exec (.regWrite off v) s = .next (hostWrite off v s) := rfl

theorem commandWrite_reserved {v : Word} (h : 5 ≤ (v.extractLsb' 0 8 : Byte).toNat) (s : State) :
    commandWrite v s = rejectCommand s := by
  unfold commandWrite
  split
  case h_6 => rfl
  all_goals omega

/-- The CMD rows together are R144's order of checks (R110, R305). -/
theorem exec_decodeCmd (v : Word) (s : State) : exec (decodeCmd v) s = .next (commandWrite v s) := by
  obtain ⟨op, hi, rfl⟩ : ∃ op hi, v = cmdValue op hi := ⟨_, _, (cmdValue_fields v).symm⟩
  have hreject : 5 ≤ op.toNat → commandWrite (cmdValue op hi) s = rejectCommand s :=
    fun hop => commandWrite_reserved (by rwa [cmdValue_opcode]) s
  rcases opcode_row op with hop | ⟨low, rfl⟩ | ⟨low, rfl⟩ | ⟨low, rfl⟩ | ⟨low, rfl⟩ | ⟨low, rfl⟩ | ⟨low, rfl⟩
  · simp only [List.mem_cons, List.not_mem_nil, or_false] at hop
    rw [commandWrite, cmdValue_opcode, decodeCmd_eq]
    obtain rfl | rfl | rfl | rfl | rfl | rfl := hop <;> rfl
  all_goals rw [hreject (by rw [toNat_ofNat_append (by decide)]; omega)]
  · rw [decodeCmd_reserved06, exec_reserved06]
  · rw [decodeCmd_reserved08, exec_reserved08]
  · rw [decodeCmd_reserved10, exec_reserved10]
  · rw [decodeCmd_reserved20, exec_reserved20]
  · rw [decodeCmd_reserved40, exec_reserved40]
  · rw [decodeCmd_reserved80, exec_reserved80]

theorem hostWrite_ctrl (low : BitVec 2) (hi : BitVec 30) {s : State} (hp : s.params.wf) :
    hostWrite 0x000 (ctrlValue low hi) s = ctrlWrite (low.getLsbD 0) (low.getLsbD 1) s :=
  (hostWrite_regOffset hp .ctrl _).trans (by rw [regStore, ctrlValue_cancelBit, ctrlValue_clearBit])

theorem exec_decodeHostWrite (off : Nat) (v : Word) {s : State} (hp : s.params.wf) :
    exec (decodeHostWrite s.params off v) s = .next (hostWrite off v s) := by
  by_cases hctrl : off = 0x000
  · subst hctrl
    obtain ⟨low, hi, rfl⟩ : ∃ low hi, v = ctrlValue low hi := ⟨_, _, (ctrlValue_fields v).symm⟩
    rw [decodeHostWrite_ctrl, hostWrite_ctrl low hi hp]
    obtain rfl | rfl | rfl | rfl := bits2_cases low
    · exact congrArg _ (hostWrite_ctrl _ hi hp)
    all_goals rfl
  · rw [decodeHostWrite, if_neg hctrl]
    split_ifs with hcmd hfeed helem
    · rw [hcmd, exec_decodeCmd]
      exact congrArg _ (hostWrite_regOffset hp .cmd v).symm
    · rw [hfeed]
      exact congrArg _ (hostWrite_regOffset hp .crcFeed v).symm
    · rw [helem]
      exact congrArg _ (hostWrite_regOffset hp .elemData v).symm
    · cases hwin : windowIndex s.params off with
      | none => rfl
      | some k =>
        rw [hostWrite, hwin]
        rfl

theorem exec_decodeHostRead (off : Nat) {s : State} (hp : s.params.wf) :
    exec (decodeHostRead s.params off) s = .next (hostRead off s) := by
  rw [decodeHostRead]
  split_ifs with helem
  · rw [helem]
    exact congrArg _ (hostRead_regOffset hp .elemData).symm
  · cases hwin : windowIndex s.params off with
    | none => rfl
    | some k =>
      rw [hostRead, hwin]
      rfl

/-- Settles O46: offset by offset, the row an access decodes to and the map's entry for it. -/
theorem accessMeansRegisterMap : Obligations.AccessMeansRegisterMap := by
  unfold Obligations.AccessMeansRegisterMap
  intro off v s hp
  exact ⟨exec_decodeHostWrite off v hp, exec_decodeHostRead off hp⟩

end Sys2Proof.Machine
end

section
/-!
Laws of the frame codec (spec/41_frame_codec.md): which format bytes are valid (R176), and the header's round trip
(R182).
-/

namespace Sys2Proof.Machine

/-- R104, R176: masking keeps bits [7:6] and [3:0], and a masked byte is a code where its number is at most 5. -/
theorem formatOf_masked_isSome : ∀ b : Byte,
    (formatOf (b &&& 0xCF#8)).isSome = true ↔ b.toNat < 64 ∧ b.toNat % 16 ≤ 5 := by decide

/-- Settles O40: the bits of a valid byte, and the count of such bytes by evaluation. -/
theorem formatByteValidity : Obligations.FormatByteValidity := by
  unfold Obligations.FormatByteValidity
  exact ⟨formatOf_masked_isSome, by decide⟩

/-- The mask keeps a supported format byte, whose flag bits are 0 (R105, R175). -/
theorem masked_of_specWidth {fmt : Byte} {w : Nat} (h : specWidth fmt = some w) : fmt &&& Config.codeMask = fmt := by
  have key : ∀ f : Byte, (specWidth f).isSome = true → f &&& Config.codeMask = f := by decide
  exact key fmt (by rw [h, Option.isSome_some])

/-- Settles O41: the vector is the outbound bytes, and each field of the decoded header reads its own. -/
theorem headerRoundTrip : Obligations.HeaderRoundTrip := by
  unfold Obligations.HeaderRoundTrip
  intro fmt tag count w h hfmt hbytes
  obtain rfl : h = #v[fmt, tag, byteOf count 0, byteOf count 1, byteOf count 2, byteOf count 3] :=
    Vector.toList_inj.mp hbytes
  calc inHdr _
    _ = { raw := fmt, code := fmt &&& Config.codeMask, tag := tag,
          count := wordOfBytes (byteOf count 0) (byteOf count 1) (byteOf count 2) (byteOf count 3) } := rfl
    _ = _ := by rw [masked_of_specWidth hfmt, wordOfBytes_byteOf]

/-- Settles O47: each word by evaluation. -/
theorem tableWordsDecode : Obligations.TableWordsDecode := by
  unfold Obligations.TableWordsDecode
  decide

end Sys2Proof.Machine
end

section
/-!
The transfer commands in IDLE and while busy (spec/40_engine.md R144 to R147; spec/43_transmit.md R220, R221, R230;
spec/44_receive.md R260), and what a reset leaves (spec/10_state.md R59).
-/

namespace Sys2Proof.Machine

/-! ### The commands' rows -/

section
variable (hi : BitVec 24) (s : State)

theorem exec_sendData : exec (.sendData hi) s = .next (acceptCommand startSendData s) := rfl
theorem exec_recvData : exec (.recvData hi) s = .next (acceptCommand startRecvData s) := rfl
theorem exec_sendToken : exec (.sendToken hi) s = .next (acceptCommand startSendToken s) := rfl

end

theorem acceptCommand_of_idle {s : State} (start : State → State) (hst : s.st = .idle) :
    acceptCommand start s = start s := acceptCommand_idle s ((busy_eq_false_iff s).mpr hst)

theorem acceptCommand_of_busy {s : State} (start : State → State) (hst : s.st ≠ .idle) :
    acceptCommand start s = rejectCommand s := acceptCommand_busy s ((busy_eq_true_iff s).mpr hst)

/-! ### The start of a transfer, by its checks -/

theorem payloadLen_eq_ofNat (count : Word) (f : FormatCode) :
    payloadLen count f = BitVec.ofNat 34 (count.toNat * width f) := by
  rw [← payloadLen_toNat, BitVec.ofNat_toNat, BitVec.setWidth_eq]

section
variable {s : State}

theorem startSendData_closed (hlink : s.link.linkOpen = false) : startSendData s = failedStart .connection 0#34 s := by
  have h := startSendData_cases s
  simp only [hlink, Bool.false_eq_true, true_and, false_and, exists_false, or_false] at h
  exact h

theorem startSendData_unsupported (hlink : s.link.linkOpen = true) (hfmt : specWidth s.settings.txFmt = none) :
    startSendData s = failedStart .unsupportedType 0#34 s := by
  have h := startSendData_cases s
  simp only [hlink, (formatOf_eq_none_iff _).mpr hfmt, Bool.true_eq_false, reduceCtorEq, true_and, false_and,
    exists_false, false_or, or_false] at h
  exact h

/-- Once the link check has passed, the length decides for a supported format (R177, R221). -/
theorem startSendData_supported {w : Nat} (hlink : s.link.linkOpen = true)
    (hfmt : specWidth s.settings.txFmt = some w) :
    startSendData s =
      if s.settings.txCount.toNat * w ≤ s.params.pbufBytes then
        enter .txHdr
          (initAcc { startTransfer s with len34 := BitVec.ofNat 34 (s.settings.txCount.toNat * w) })
      else failedStart .capacity (BitVec.ofNat 34 (s.settings.txCount.toNat * w)) s := by
  obtain ⟨f, hf, rfl⟩ := (specWidth_eq_some_iff _ _).mp hfmt
  have h := startSendData_cases s
  simp only [hlink, hf, Bool.true_eq_false, reduceCtorEq, Option.some.injEq, true_and, false_and, false_or,
    exists_eq_left', payloadLen_toNat] at h
  rw [← payloadLen_eq_ofNat]
  obtain ⟨hlong, h⟩ | ⟨hfits, h⟩ := h
  · rw [h, if_neg (by omega)]
    rfl
  · rw [h, if_pos hfits]

theorem startRecvData_closed (hlink : s.link.linkOpen = false) : startRecvData s = failedStart .connection 0#34 s := by
  have h := startRecvData_cases s
  simp only [hlink, Bool.false_eq_true, true_and, false_and, or_false] at h
  exact h

theorem startRecvData_open (hlink : s.link.linkOpen = true) :
    startRecvData s = enter .rxWaitSync (initAcc { startTransfer s with crcRx := 0#16 }) := by
  simpa [hlink] using startRecvData_cases s

theorem startSendToken_closed (hlink : s.link.linkOpen = false) :
    startSendToken s = failedStart .connection 0#34 s := by
  have h := startSendToken_cases s
  simp only [hlink, Bool.false_eq_true, true_and, false_and, or_false] at h
  exact h

theorem startSendToken_open (hlink : s.link.linkOpen = true) :
    startSendToken s =
      enter (if s.settings.tokenLen = 0#5 then .tokWait else .tokSend)
        { startTransfer s with len34 := BitVec.ofNat 34 s.settings.tokenLen.toNat } := by
  rcases startSendToken_cases s with ⟨h, -⟩ | ⟨-, htok, h⟩ | ⟨-, htok, h⟩
  · simp [hlink] at h
  · rw [h, if_pos htok, BitVec.ofNat_toNat]
  · rw [h, if_neg htok, BitVec.ofNat_toNat]

end

/-! ### The obligations -/

/-- Settles O2: the command is accepted, and its checks pass. -/
theorem sendDataEntersHeader : Obligations.SendDataEntersHeader := by
  unfold Obligations.SendDataEntersHeader
  intro hi s w hst hlink hfmt hfits
  rw [exec_sendData, acceptCommand_of_idle _ hst, startSendData_supported hlink hfmt, if_pos hfits]
  rfl

/-- Settles O3: the three start checks in their order. -/
theorem sendDataStartAborts : Obligations.SendDataStartAborts := by
  unfold Obligations.SendDataStartAborts
  intro hi s hst
  rw [exec_sendData, acceptCommand_of_idle _ hst]
  refine ⟨fun hlink => ?closed, fun hlink hfmt => ?unsupported, fun w hlink hfmt hlong => ?long⟩
  case closed => rw [startSendData_closed hlink]
  case unsupported => rw [startSendData_unsupported hlink hfmt]
  case long => rw [startSendData_supported hlink hfmt, if_neg (by omega)]

/-- Settles O4: the command is accepted, and the link decides. -/
theorem recvDataEntersSync : Obligations.RecvDataEntersSync := by
  unfold Obligations.RecvDataEntersSync
  intro hi s hst
  rw [exec_recvData, acceptCommand_of_idle _ hst]
  refine ⟨fun hlink => ?opened, fun hlink => ?closed⟩
  case opened =>
    rw [startRecvData_open hlink]
    rfl
  case closed => rw [startRecvData_closed hlink]

/-- Settles O5: the command is accepted, and the link and then the token's length decide. -/
theorem sendTokenEnters : Obligations.SendTokenEnters := by
  unfold Obligations.SendTokenEnters
  intro hi s hst
  rw [exec_sendToken, acceptCommand_of_idle _ hst]
  refine ⟨fun hlink => ?opened, fun hlink => ?closed⟩
  case opened =>
    rw [startSendToken_open hlink]
    rfl
  case closed => rw [startSendToken_closed hlink]

/-- Settles O7: each of the four commands is rejected while busy. -/
theorem busyCommandsRejected : Obligations.BusyCommandsRejected := by
  unfold Obligations.BusyCommandsRejected
  intro hi s hst i hi
  simp only [List.mem_cons, List.not_mem_nil, or_false] at hi
  obtain rfl | rfl | rfl | rfl := hi
  · rw [exec_sendData, acceptCommand_of_busy _ hst, rejectCommand]
  · rw [exec_recvData, acceptCommand_of_busy _ hst, rejectCommand]
  · rw [exec_sendToken, acceptCommand_of_busy _ hst, rejectCommand]
  · rw [exec_crcInit, acceptCommand_of_busy _ hst, rejectCommand]

/-! ### Reset -/

theorem step_reset {s : State} {rest : List Event} (h : s.script = .reset :: rest) :
    step s = .next (resetStep (passed rest s)) := step_of_fetch_event (fetch_cons h)

theorem step_powerOn {s : State} {rest : List Event} (h : s.script = .powerOn :: rest) :
    step s = .next (powerOnStep (passed rest s)) := step_of_fetch_event (fetch_cons h)

/-- Settles O39: the step of either event writes every register, and a PBUF of which nothing is listed reads as the
free value. -/
theorem resetRestores : Obligations.ResetRestores := by
  unfold Obligations.ResetRestores
  rintro s rest _ rfl
  refine ⟨fun hscript => ?reset, fun hscript => ⟨?powerOn, fun a => ?drawn⟩⟩
  case reset =>
    rw [step_reset hscript]
    rfl
  case powerOn =>
    rw [step_powerOn hscript]
    rfl
  case drawn => rfl

/-! ### The step runs the row -/

theorem outcomeOf_fetchWord {w : RawWord} {i : Instr} {s : State} (data : State → State)
    (h : decode s.params w = .instr i) : outcomeOf (fetchWord w data s) = exec i s := by
  rw [fetchWord, h, outcomeOf]

/-- Settles O48: each of the four kinds of event fetches its word, which decodes to the row. -/
theorem stepRunsInstruction : Obligations.StepRunsInstruction := by
  unfold Obligations.StepRunsInstruction
  intro s rest i
  refine ⟨fun off v hscript hdec => ?write, fun off hscript hdec => ?read, fun b more hscript hheld hdec => ?rx,
    fun b hscript hdata hdec => ?tx⟩ <;> rw [step_eq_outcomeOf, fetch_cons hscript]
  case write => exact outcomeOf_fetchWord (s := passed rest s) id hdec
  case read => exact outcomeOf_fetchWord (s := passed rest s) id hdec
  case rx =>
    have hh : (passed rest s).link.held = b :: more := hheld
    rw [fetchEvent, hh]
    exact outcomeOf_fetchWord (s := handedOver more rest s) (offerByte b) hdec
  case tx =>
    have hd : txData (passed rest s) = some b := hdata
    rw [fetchEvent, hd]
    exact outcomeOf_fetchWord (s := passed rest s) (takeByte b) hdec

end Sys2Proof.Machine
end

section
/-!
Bytes of the link by the state they meet (spec/40_engine.md R143): the markers and handshake bytes, what a stray byte
does, and the header's and checksum's bytes, each the rule of its state (spec/43_transmit.md, spec/44_receive.md).
-/

namespace Sys2Proof.Machine

/-! ### Which rule an offered or taken byte runs -/

section
variable {s : State} (b : Byte)

theorem offerByte_txWaitReady (hst : s.st = .txWaitReady) : offerByte b s = waitReadyGot b s := by
  simp [offerByte, rxReady, rxByte, hst]

theorem offerByte_txWaitAck (hst : s.st = .txWaitAck) : offerByte b s = waitAckGot b s := by
  simp [offerByte, rxReady, rxByte, hst]

theorem offerByte_tokWait (hst : s.st = .tokWait) : offerByte b s = tokWaitGot b s := by
  simp [offerByte, rxReady, rxByte, hst]

theorem offerByte_rxWaitSync (hst : s.st = .rxWaitSync) : offerByte b s = waitSyncGot b s := by
  simp [offerByte, rxReady, rxByte, hst]

theorem offerByte_rxHdr (hst : s.st = .rxHdr) : offerByte b s = rxHdrGot b s := by
  simp [offerByte, rxReady, rxByte, hst]

theorem offerByte_rxPayload (hst : s.st = .rxPayload) : offerByte b s = rxPayloadGot b s := by
  simp [offerByte, rxReady, rxByte, hst]

theorem offerByte_rxCrc (hst : s.st = .rxCrc) : offerByte b s = rxCrcGot b s := by
  simp [offerByte, rxReady, rxByte, hst]

theorem offerByte_not_ready (h : rxReady s = false) :
    offerByte b s = { s with link := { s.link with held := b :: s.link.held } } := if_neg (by simp [h])

theorem txData_of_not_valid (h : txValid s = false) : txData s = none := by
  cases hst : s.st <;> simp [txValid, hst] at h <;> simp [txData, hst]

theorem takeByte_rxReady (hst : s.st = .rxReady) :
    takeByte Config.readyByte s =
      readySent { s with link := { s.link with wire := s.link.wire ++ [Config.readyByte] } } := by
  simp [takeByte, txData, txByte, hst]

theorem takeByte_rxAck (hst : s.st = .rxAck) :
    takeByte Config.ackByte s =
      completed { s with link := { s.link with wire := s.link.wire ++ [Config.ackByte] } } := by
  simp [takeByte, txData, txByte, hst, ackSent, complete, completed]

theorem takeByte_txCrc {b : Byte} (hst : s.st = .txCrc) (hd : txData s = some b) :
    takeByte b s = txCrcSent { s with link := { s.link with wire := s.link.wire ++ [b] } } := by
  simp [takeByte, txByte, hst, hd]

end

/-! ### The handshake bytes and stray bytes -/

section
variable (s : State)

theorem waitReadyGot_ready :
    waitReadyGot Config.readyByte s =
      if s.len34 = 0#34 then enter .txDrain s else enter .txPayload { s with chunkCnt := 0#4 } := if_pos rfl

theorem waitAckGot_ack : waitAckGot Config.ackByte s = completed s := if_pos rfl

theorem tokWaitGot_ready : tokWaitGot Config.readyByte s = completed s := if_pos rfl

theorem waitSyncGot_sync : waitSyncGot Config.rxSync s = enter .rxHdr { s with idx := 0#5 } := if_pos rfl

variable {s} {b : Byte}

theorem waitReadyGot_stray (hb : b ≠ Config.readyByte) :
    waitReadyGot b s = if s.settings.strayFail then aborted .protocol .ready s else s := if_neg hb

theorem waitAckGot_stray (hb : b ≠ Config.ackByte) :
    waitAckGot b s = if s.settings.strayFail then aborted .protocol .ack s else s := if_neg hb

theorem tokWaitGot_stray (hb : b ≠ Config.readyByte) :
    tokWaitGot b s = if s.settings.strayFail then aborted .protocol .token s else s := if_neg hb

theorem waitSyncGot_stray (hb : b ≠ Config.rxSync) : waitSyncGot b s = s := if_neg hb

theorem readySent_eq (s : State) :
    readySent s = enter (if s.len34 = 0#34 then .rxCrc else .rxPayload) { s with idx := 0#5 } := by
  rw [readySent]
  split <;> rfl

end

/-- Settles O20: SYNC_OUT is the header's byte at IDX 0, SYNC_IN the byte RX_WAIT_SYNC awaits. -/
theorem syncMarkersPass : Obligations.SyncMarkersPass := by
  unfold Obligations.SyncMarkersPass
  refine fun s => ⟨fun hst hidx => ?out, fun hst => ?inbound⟩
  case out =>
    have hd : txData s = some Config.txSync := by
      rw [txData_txHdr hst, hidx]
      rfl
    calc exec .syncOut s
      _ = .next (takeByte Config.txSync s) := rfl
      _ = _ := by
        rw [takeByte_txHdr hst hd, txHdrSent_eq, hidx]
        rfl
  case inbound =>
    calc exec .syncIn s
      _ = .next (offerByte Config.rxSync s) := rfl
      _ = .next (enter .rxHdr { s with idx := 0#5 }) := by rw [offerByte_rxWaitSync _ hst, waitSyncGot_sync]
      _ = _ := rfl

/-- Settles O21: the byte 0x61 in each of the three states that send or await it. -/
theorem readinessBytesPass : Obligations.ReadinessBytesPass := by
  unfold Obligations.ReadinessBytesPass
  intro s
  have hin : exec .readyIn s = .next (offerByte Config.readyByte s) := rfl
  refine ⟨fun hst => ?out, fun hst hlen => ?empty, fun hst hlen => ?payload, fun hst => ?token⟩
  case out =>
    calc exec .readyOut s
      _ = .next (takeByte Config.readyByte s) := rfl
      _ = _ := by
        rw [takeByte_rxReady hst, readySent_eq]
        rfl
  case empty =>
    rw [hin, offerByte_txWaitReady _ hst, waitReadyGot_ready, if_pos hlen]
    rfl
  case payload =>
    rw [hin, offerByte_txWaitReady _ hst, waitReadyGot_ready, if_neg hlen]
    rfl
  case token => rw [hin, offerByte_tokWait _ hst, tokWaitGot_ready]

/-- Settles O22: the byte 0x5E in the state that sends it and in the one that awaits it. -/
theorem acknowledgmentsComplete : Obligations.AcknowledgmentsComplete := by
  unfold Obligations.AcknowledgmentsComplete
  refine fun s => ⟨fun hst => ?out, fun hst => ?inbound⟩
  case out =>
    calc exec .ackOut s
      _ = .next (takeByte Config.ackByte s) := rfl
      _ = _ := congrArg _ (takeByte_rxAck hst)
  case inbound =>
    calc exec .ackIn s
      _ = .next (offerByte Config.ackByte s) := rfl
      _ = _ := by rw [offerByte_txWaitAck _ hst, waitAckGot_ack]

/-- Settles O24: each wait's rule for a byte it does not await. -/
theorem strayBytesJudged : Obligations.StrayBytesJudged := by
  unfold Obligations.StrayBytesJudged
  intro s b more rest hscript hheld
  rw [step_rx hscript hheld]
  refine ⟨fun wait hwait => congrArg _ ?_, fun hst hb => congrArg _ ?_⟩
  · obtain ⟨hst, hb, rfl⟩ | ⟨hst, hb, rfl⟩ | ⟨hst, hb, rfl⟩ := hwait
    · exact (offerByte_txWaitReady b (s := handedOver more rest s) hst).trans (waitReadyGot_stray hb)
    · exact (offerByte_txWaitAck b (s := handedOver more rest s) hst).trans (waitAckGot_stray hb)
    · exact (offerByte_tokWait b (s := handedOver more rest s) hst).trans (tokWaitGot_stray hb)
  · exact (offerByte_rxWaitSync b (s := handedOver more rest s) hst).trans (waitSyncGot_stray hb)

/-- An offer that is not taken leaves the byte at the head of what the transport holds (R35). -/
theorem offerByte_handedOver_not_ready {s : State} {b : Byte} {more : List Byte} (rest : List Event)
    (hheld : s.link.held = b :: more) (h : rxReady s = false) :
    offerByte b (handedOver more rest s) = passed rest s := by
  have hback : { s.link with held := b :: more } = s.link := by rw [← hheld]
  calc offerByte b (handedOver more rest s)
    _ = { passed rest s with link := { s.link with held := b :: more } } :=
      offerByte_not_ready (s := handedOver more rest s) b h
    _ = passed rest s := by rw [hback, passed]

/-- Settles O25: the columns rx_ready and tx_valid of the states named, and then a byte that does not pass. -/
theorem bytesPassOnlyWhenReady : Obligations.BytesPassOnlyWhenReady := by
  unfold Obligations.BytesPassOnlyWhenReady
  refine fun s rest => ⟨fun hscript hst => ?rx, fun hscript hst => ?tx⟩
  case rx =>
    have hready : rxReady s = false := by
      rw [Bool.eq_false_iff, ne_eq, rxReady_iff]
      intro h
      rcases h with h | h | h | h | h | h | h <;> simp [h] at hst
    cases hheld : s.link.held with
    | nil => exact step_rx_none hscript hheld
    | cons b more => rw [step_rx hscript hheld, offerByte_handedOver_not_ready rest hheld hready]
  case tx =>
    have hvalid : txValid s = false := by
      rw [Bool.eq_false_iff, ne_eq, txValid_iff]
      intro h
      rcases h with h | h | h | h | h | h <;> simp [h] at hst
    exact step_tx_none hscript (txData_of_not_valid hvalid)

/-! ### The inbound header -/

theorem setIfInBounds_eq_set (h : Vector Byte 6) {i : Nat} (hi : i < 6) (b : Byte) :
    h.setIfInBounds i b = h.set i b hi := Vector.toArray_inj.mp (by simp [Array.setIfInBounds, hi])

/-- A header byte before the sixth: stored at IDX, and the deadline restarts (R262). -/
theorem rxHdrGot_early (b : Byte) {s : State} (hidx : s.idx ≠ 5#5) :
    rxHdrGot b s =
      { s with hdr := s.hdr.setIfInBounds s.idx.toNat b, idx := s.idx + 1#5, timer := 0#32 } := by
  have hlast : s.idx + 1#5 ≠ 6#5 := by bv_omega
  exact if_neg hlast

/-! ### The format byte -/

/-- The format byte as a number: flags in bits [5:4], the code below (R104). -/
theorem formatByte_eq_ofNat : ∀ (flags : BitVec 2) (code : BitVec 4),
    formatByte flags code = BitVec.ofNat 8 (16 * flags.toNat + code.toNat) := by decide

theorem passFormatByte_out {s : State} (hst : s.st = .txHdr) (hidx : s.idx = 1#5) :
    passFormatByte s.settings.txFmt s =
      { s with idx := 2#5, link := { s.link with wire := s.link.wire ++ [s.settings.txFmt] } } := by
  have hd : txData s = some s.settings.txFmt := by
    rw [txData_txHdr hst, hidx]
    rfl
  rw [passFormatByte, if_pos hst, takeByte_txHdr hst hd, txHdrSent_eq, hidx]
  rfl

theorem passFormatByte_in (b : Byte) {s : State} (hst : s.st = .rxHdr) (hidx : s.idx = 0#5) :
    passFormatByte b s = { s with hdr := s.hdr.set 0 b, idx := 1#5, timer := 0#32 } := by
  rw [passFormatByte, if_neg (by simp [hst]), offerByte_rxHdr b hst, rxHdrGot_early b (by simp [hidx]), hidx]
  exact congrArg (fun h => { s with hdr := h, idx := 1#5, timer := 0#32 })
    (setIfInBounds_eq_set s.hdr (i := 0) (by decide) b)

/-- A row of the format byte, given that it passes the byte of its code, does what R222 and R262 say of that byte. -/
theorem formatRow_passes {row : BitVec 2 → Instr} {code : BitVec 4} {b : Byte}
    (hb : b = BitVec.ofNat 8 code.toNat)
    (hrow : ∀ flags s, exec (row flags) s = .next (passFormatByte (formatByte flags code) s)) (s : State) :
    (s.st = .txHdr → s.idx = 1#5 → s.settings.txFmt = b →
      exec (row 0#2) s = .next { s with idx := 2#5, link := { s.link with wire := s.link.wire ++ [b] } }) ∧
    (∀ flags : BitVec 2, s.st = .rxHdr → s.idx = 0#5 →
      exec (row flags) s = .next
        { s with hdr := s.hdr.set 0 (BitVec.ofNat 8 (16 * flags.toNat + b.toNat)), idx := 1#5, timer := 0#32 }) := by
  have hcode : b.toNat = code.toNat := by
    have hlt := code.isLt
    rw [hb, BitVec.toNat_ofNat]
    omega
  refine ⟨fun hst hidx hfmt => ?_, fun flags hst hidx => ?_⟩
  · have hbyte : formatByte 0#2 code = b := by
      rw [formatByte_eq_ofNat, hb, BitVec.toNat_zero, Nat.mul_zero, Nat.zero_add]
    rw [hrow, hbyte, ← hfmt, passFormatByte_out hst hidx]
  · rw [hrow, passFormatByte_in _ hst hidx, formatByte_eq_ofNat, hcode]

/-- Settles O23: each of the six rows passes the byte of its own code. -/
theorem formatBytesPass : Obligations.FormatBytesPass := by
  unfold Obligations.FormatBytesPass
  simp only [List.forall_mem_cons, List.not_mem_nil, false_implies, implies_true, and_true]
  exact ⟨formatRow_passes (code := 0#4) rfl fun _ _ => rfl, formatRow_passes (code := 1#4) rfl fun _ _ => rfl,
    formatRow_passes (code := 2#4) rfl fun _ _ => rfl, formatRow_passes (code := 3#4) rfl fun _ _ => rfl,
    formatRow_passes (code := 4#4) rfl fun _ _ => rfl, formatRow_passes (code := 5#4) rfl fun _ _ => rfl⟩

/-! ### The sixth header byte -/

/-- The RX registers record the header as it decodes, valid or not (R262, R174). -/
def headerRecorded (s : State) : State :=
  { s with
    rxRaw := (inHdr s.hdr).raw, rxCode := (inHdr s.hdr).code, rxTag := (inHdr s.hdr).tag
    rxCount := (inHdr s.hdr).count }

theorem rxHdrGot_sixth (b : Byte) {s : State} (hidx : s.idx = 5#5) :
    rxHdrGot b s = headerDone { s with hdr := s.hdr.set 5 b, idx := 6#5, timer := 0#32 } := by
  have hset : s.hdr.setIfInBounds (5#5).toNat b = s.hdr.set 5 b := setIfInBounds_eq_set s.hdr (by decide) b
  rw [rxHdrGot, hidx, hset]
  rfl

theorem headerDone_invalid {s : State} (h : specWidth (headerRecorded s).rxCode = none) :
    headerDone s = aborted .protocol .header (headerRecorded s) := by
  have hcode : formatOf (inHdr s.hdr).code = none := (formatOf_eq_none_iff _).mpr h
  simp only [headerDone, hcode]
  rfl

/-- With a valid code the length decides (R177, R262, R306). -/
theorem headerDone_valid {s : State} {w : Nat} (h : specWidth (headerRecorded s).rxCode = some w) :
    headerDone s =
      (let t : State :=
        { headerRecorded s with len34 := BitVec.ofNat 34 ((headerRecorded s).rxCount.toNat * w) }
      if (headerRecorded s).rxCount.toNat * w ≤ s.params.pbufBytes then enter .rxReady { t with idx := 0#5 }
      else aborted .capacity .header t) := by
  obtain ⟨f, hf, rfl⟩ := (specWidth_eq_some_iff _ _).mp h
  have hcode : formatOf (inHdr s.hdr).code = some f := hf
  have hlen := payloadLen_toNat (inHdr s.hdr).count f
  simp only [headerDone, hcode, headerRecorded, ← payloadLen_eq_ofNat]
  by_cases hfits : (inHdr s.hdr).count.toNat * width f ≤ s.params.pbufBytes
  · rw [if_neg (by omega), if_pos hfits]
  · rw [if_pos (by omega), if_neg hfits]
    rfl

theorem wordOfBytes_eq_ofNat (b0 b1 b2 b3 : Byte) :
    wordOfBytes b0 b1 b2 b3 =
      BitVec.ofNat 32 (b0.toNat + 256 * b1.toNat + 65536 * b2.toNat + 16777216 * b3.toNat) := by
  rw [← wordOfBytes_toNat, BitVec.ofNat_toNat, BitVec.setWidth_eq]

/-- Settles O31: the sixth byte completes the header, which is recorded and then judged. -/
theorem headerJudged : Obligations.HeaderJudged := by
  unfold Obligations.HeaderJudged
  intro s b more rest t hscript hheld hst hidx ht
  have hrec : t = headerRecorded { handedOver more rest s with hdr := s.hdr.set 5 b, idx := 6#5, timer := 0#32 } := by
    simp [ht, headerRecorded, inHdr, wordOfBytes_eq_ofNat, Config.codeMask]
  have hstep : step s =
      .next (headerDone { handedOver more rest s with hdr := s.hdr.set 5 b, idx := 6#5, timer := 0#32 }) := by
    rw [step_rx hscript hheld, offerByte_rxHdr b (s := handedOver more rest s) hst]
    exact congrArg _ (rxHdrGot_sixth b (s := handedOver more rest s) hidx)
  rw [hstep, hrec]
  refine ⟨fun hcode => ?invalid, fun w hcode hlong => ?long, fun w hcode hfits => ?fits⟩
  case invalid => rw [headerDone_invalid hcode]
  case long =>
    rw [headerDone_valid hcode]
    exact congrArg _ (if_neg (Nat.not_le.mpr hlong))
  case fits =>
    rw [headerDone_valid hcode]
    exact congrArg _ (if_pos hfits)

/-- Settles O32: the rule of RX_HDR for a byte before the sixth. -/
theorem headerBytesCollected : Obligations.HeaderBytesCollected := by
  unfold Obligations.HeaderBytesCollected
  intro s b more rest i hscript hheld hst hidx
  have hi := i.isLt
  have hnat : s.idx.toNat = i := by rw [hidx, BitVec.toNat_ofNat, Nat.mod_eq_of_lt (by omega)]
  have hnext : s.idx + 1#5 = BitVec.ofNat 5 (i + 1) := by rw [hidx]; bv_omega
  have hearly : s.idx ≠ 5#5 := fun h => by rw [h] at hnat; simp at hnat; omega
  calc step s
    _ = .next (rxHdrGot b (handedOver more rest s)) := by
      rw [step_rx hscript hheld, offerByte_rxHdr b (s := handedOver more rest s) hst]
    _ = .next { handedOver more rest s with
          hdr := s.hdr.setIfInBounds s.idx.toNat b, idx := s.idx + 1#5, timer := 0#32 } :=
      congrArg _ (rxHdrGot_early b (s := handedOver more rest s) hearly)
    _ = _ := by simp only [hnat, hnext, setIfInBounds_eq_set s.hdr (show (i : Nat) < 6 by omega)]

/-! ### The checksum's bytes -/

theorem extractLsb'_byte_eq_ofNat (acc : Sum16) (i : Nat) :
    acc.extractLsb' (8 * i) 8 = BitVec.ofNat 8 (acc.toNat / 256 ^ i) := by
  rw [BitVec.extractLsb', Nat.shiftRight_eq_div_pow, pow_mul]
  rfl

theorem txData_txCrc {s : State} (hst : s.st = .txCrc) :
    txData s = some (BitVec.ofNat 8 (if s.idx = 0#5 then s.acc.toNat else s.acc.toNat / 256)) := by
  have hlow := extractLsb'_byte_eq_ofNat s.acc 0
  have hhigh := extractLsb'_byte_eq_ofNat s.acc 1
  simp only [Nat.mul_zero, Nat.mul_one, pow_zero, pow_one, Nat.div_one] at hlow hhigh
  rw [txData, hst, hlow, hhigh, apply_ite (BitVec.ofNat 8)]

/-- IDX is counted before it is compared with the checksum's two bytes, so byte 1 is the last. -/
theorem txCrcSent_eq (s : State) :
    txCrcSent s = if s.idx = 1#5 then enter .txWaitAck { s with idx := 0#5 } else { s with idx := s.idx + 1#5 } := by
  have hlast : s.idx + 1#5 = 2#5 ↔ s.idx = 1#5 := by bv_omega
  simp only [txCrcSent, hlast]

theorem step_drain {s : State} {rest : List Event} (h : s.script = .drain :: rest) :
    step s = .next (drainStep (passed rest s)) := step_of_fetch_event (fetch_cons h)

theorem drainStep_of_ne {s : State} (hst : s.st ≠ .txDrain) : drainStep s = s := if_neg hst

theorem drainStep_txDrain {s : State} (hst : s.st = .txDrain) : drainStep s = enter .txCrc { s with idx := 0#5 } :=
  if_pos hst

/-- A checksum byte goes out: the one of IDX, and the rule of TX_CRC runs. -/
theorem step_tx_txCrc {s : State} {rest : List Event} {b : Byte} (hscript : s.script = .tx :: rest)
    (hst : s.st = .txCrc) (hd : txData s = some b) : step s = .next (txCrcSent (sent b rest s)) := by
  rw [step_tx hscript hd, takeByte_txCrc (s := passed rest s) hst hd]
  rfl

/-- Settles O28: the drain by the state it meets, the checksum's bytes by IDX. -/
theorem checksumBytesSent : Obligations.ChecksumBytesSent := by
  unfold Obligations.ChecksumBytesSent
  refine fun s rest => ⟨fun hscript hst => ?drain, fun hscript hst => ?other, fun hscript hst hidx => ?low,
    fun hscript hst hidx => ?high⟩
  case drain =>
    rw [step_drain hscript, drainStep_txDrain (s := passed rest s) hst]
    rfl
  case other => rw [step_drain hscript, drainStep_of_ne (s := passed rest s) hst]
  case low =>
    have hd := txData_txCrc hst
    rw [if_pos hidx] at hd
    rw [step_tx_txCrc hscript hst hd, txCrcSent_eq]
    simp [sent, hidx]
  case high =>
    have hd := txData_txCrc hst
    rw [hidx, if_neg (by decide)] at hd
    rw [step_tx_txCrc hscript hst hd, txCrcSent_eq]
    exact congrArg _ (if_pos hidx)

/-- A received checksum byte by IDX: the low one first (R109, R265). -/
theorem rxCrcGot_low (b : Byte) {s : State} (hidx : s.idx = 0#5) :
    rxCrcGot b s = { s with crcRx := s.crcRx.extractLsb' 8 8 ++ b, idx := 1#5, timer := 0#32 } := by
  simp [rxCrcGot, hidx]

theorem rxCrcGot_high (b : Byte) {s : State} (hidx : s.idx = 1#5) :
    rxCrcGot b s = enter .rxValidate { s with crcRx := b ++ s.crcRx.extractLsb' 0 8, idx := 0#5 } := by
  simp [rxCrcGot, hidx, enter]

/-- Settles O34: each byte's half of CRC_RX as a number. -/
theorem checksumBytesReceived : Obligations.ChecksumBytesReceived := by
  unfold Obligations.ChecksumBytesReceived
  intro s b more rest hscript hheld hst
  have hb := b.isLt
  have hcrc := s.crcRx.isLt
  rw [step_rx hscript hheld, offerByte_rxCrc b (s := handedOver more rest s) hst]
  refine ⟨fun hidx => ?low, fun hidx => ?high⟩
  case low =>
    have hval : s.crcRx.extractLsb' 8 8 ++ b = BitVec.ofNat 16 (256 * (s.crcRx.toNat / 256) + b.toNat) := by
      apply BitVec.eq_of_toNat_eq
      rw [append_toNat, BitVec.extractLsb'_toNat, BitVec.toNat_ofNat, Nat.shiftRight_eq_div_pow]
      omega
    rw [rxCrcGot_low b (s := handedOver more rest s) hidx, ← hval]
    rfl
  case high =>
    have hval : b ++ s.crcRx.extractLsb' 0 8 = BitVec.ofNat 16 (256 * b.toNat + s.crcRx.toNat % 256) := by
      apply BitVec.eq_of_toNat_eq
      rw [append_toNat, BitVec.extractLsb'_toNat, BitVec.toNat_ofNat, Nat.shiftRight_zero]
      omega
    rw [rxCrcGot_high b (s := handedOver more rest s) hidx, ← hval]
    rfl

/-! ### The validation -/

theorem step_internal {s : State} {rest : List Event} (h : s.script = .internal :: rest) :
    step s = .next (internalStep (passed rest s)) := step_of_fetch_event (fetch_cons h)

theorem internalStep_of_ne {s : State} (hst : s.st ≠ .rxValidate) : internalStep s = s := if_neg hst

/-- The verdict of RX_VALIDATE (R266). -/
theorem internalStep_rxValidate {s : State} (hst : s.st = .rxValidate) :
    internalStep s =
      (let t : State := { s with status := { s.status with crcMatch := decide (s.crcRx = s.acc) } }
      if s.crcRx = s.acc ∨ s.settings.mismatchAck = true then enter .rxAck t
      else aborted .checksumMismatch .none t) := by
  simp only [internalStep, if_pos hst, validate, recordMatch, beq_iff_eq]
  rfl

/-- Settles O35: the verdict in RX_VALIDATE, and no effect elsewhere. -/
theorem validateJudges : Obligations.ValidateJudges := by
  unfold Obligations.ValidateJudges
  intro s rest hscript
  rw [step_internal hscript]
  refine ⟨fun hst hpass => ?pass, fun hst hne hack => ?fail, fun hst => ?other⟩
  case pass =>
    rw [internalStep_rxValidate (s := passed rest s) hst]
    exact congrArg _ (if_pos hpass)
  case fail =>
    rw [internalStep_rxValidate (s := passed rest s) hst]
    have hno : ¬(s.crcRx = s.acc ∨ s.settings.mismatchAck = true) := by simp [hne, hack]
    refine congrArg _ ((if_neg hno).trans ?_)
    simp [passed, hne]
  case other => rw [internalStep_of_ne (s := passed rest s) hst]

end Sys2Proof.Machine
end

section
/-!
Ticks (spec/40_engine.md R150) and the deadlines of the seven wait states (R151).
-/

namespace Sys2Proof.Machine

theorem step_tick {s : State} {rest : List Event} (h : s.script = .tick :: rest) :
    step s = .next (tickStep (passed rest s)) := step_of_fetch_event (fetch_cons h)

theorem satInc_eq_ofNat (v : Word) : satInc v = BitVec.ofNat 32 (min (v.toNat + 1) (2 ^ 32 - 1)) := by
  apply BitVec.eq_of_toNat_eq
  rw [satInc_toNat, BitVec.toNat_ofNat]
  omega

/-- Settles O38: the tick's rule in IDLE and in the states without deadline or gap. -/
theorem tickCounts : Obligations.TickCounts := by
  unfold Obligations.TickCounts
  intro s rest hscript
  rw [step_tick hscript]
  refine ⟨rfl, fun hst => ?idle, fun hst hgap hwait => ?counts⟩
  case idle => rw [tickStep_idle (passed rest s) hst]
  case counts =>
    rw [tickStep_other (passed rest s) hst hgap hwait, satInc_eq_ofNat]
    rfl

/-! ### A wait state's deadline -/

section
variable {s : State} {dl : Word} {code : ErrCode} {wait : ErrWait}

/-- A tick in a wait state, from any TIMER: it counts, and then the deadline is judged (R151). -/
theorem tickStep_wait_timer (h : waitBound s = some (dl, code, wait)) (v : Word) :
    tickStep { s with timer := v } = deadline dl code wait { s with timer := satInc v } :=
  tickStep_wait { s with timer := v } h

theorem deadline_not_reached (h : dl = 0#32 ∨ s.timer.toNat < dl.toNat) : deadline dl code wait s = s := by
  refine if_neg fun ⟨hne, hge⟩ => ?_
  rcases h with h | h
  · exact hne h
  · exact absurd (show dl.toNat ≤ s.timer.toNat from hge) (by omega)

theorem deadline_reached (hne : dl ≠ 0#32) (h : dl.toNat ≤ s.timer.toNat) :
    deadline dl code wait s = aborted code wait s := if_pos ⟨hne, h⟩

/-- Ticks that do not reach the deadline count, saturating, and nothing else happens (R150, R151). -/
theorem tickStep_iterate_wait (hwait : waitBound s = some (dl, code, wait)) (htimer : s.timer = 0#32) {n : Nat}
    (hn : dl = 0#32 ∨ n < dl.toNat) :
    tickStep^[n] s = { s with timer := BitVec.ofNat 32 (min n (2 ^ 32 - 1)) } := by
  have hdl := dl.isLt
  induction n with
  | zero =>
    rw [Function.iterate_zero_apply, Nat.zero_min, ← htimer]
  | succ n ih =>
    have hnext : satInc (BitVec.ofNat 32 (min n (2 ^ 32 - 1))) = BitVec.ofNat 32 (min (n + 1) (2 ^ 32 - 1)) := by
      rw [satInc_eq_ofNat, BitVec.toNat_ofNat]
      congr 1
      omega
    rw [Function.iterate_succ_apply', ih (hn.imp id (by omega)), tickStep_wait_timer hwait, hnext]
    refine deadline_not_reached (hn.imp id fun hlt => ?_)
    simp only [BitVec.toNat_ofNat]
    omega

end

/-- Settles O36: TIMER counts the ticks, and the D-th is the first at which it reaches D. -/
theorem deadlineExpiresExactly : Obligations.DeadlineExpiresExactly := by
  unfold Obligations.DeadlineExpiresExactly
  intro s dl code wait hwait htimer
  have hdl := dl.isLt
  refine ⟨fun n hn => ?waits, fun hne => ?expires, fun hzero n => ?never⟩
  case waits =>
    rw [tickStep_iterate_wait hwait htimer (.inr hn), Nat.min_eq_left (by omega)]
  case expires =>
    obtain ⟨n, hn⟩ : ∃ n, dl.toNat = n + 1 :=
      Nat.exists_eq_succ_of_ne_zero fun h => hne (BitVec.eq_of_toNat_eq h)
    have hlast : satInc (BitVec.ofNat 32 n) = dl := by
      rw [satInc_ofNat (by omega), ← hn, BitVec.ofNat_toNat, BitVec.setWidth_eq]
    rw [hn, Function.iterate_succ_apply', tickStep_iterate_wait hwait htimer (.inr (by omega)),
      Nat.min_eq_left (by omega), tickStep_wait_timer hwait, hlast]
    exact deadline_reached hne le_rfl
  case never => exact tickStep_iterate_wait hwait htimer (.inl hzero)

end Sys2Proof.Machine
end

section
/-!
The payload as a whole: a byte received is stored at PROGRESS and summed, and a run of them fills the frame
(spec/44_receive.md R264); and the sender's payload reaches the wire byte by byte, through the pauses
(spec/43_transmit.md R224 to R226).
-/

namespace Sys2Proof.Machine

theorem pbufByte_write (s : State) (a c : Nat) (b : Byte) :
    pbufByte { s with pbuf := s.pbuf.write a b } c = if c = a then b else pbufByte s c := by
  simp only [pbufByte, read_write]
  split <;> rfl

/-! ### Receiving -/

/-- The rule of RX_PAYLOAD with its counter as a number, inside the buffer and while PROGRESS does not wrap. -/
theorem rxPayloadGot_eq (b : Byte) {s : State} (hbuf : s.progress.toNat < s.params.pbufBytes)
    (hprog : s.progress.toNat + 1 < 2 ^ 32) :
    rxPayloadGot b s =
      (let t : State :=
        { s with
          pbuf := s.pbuf.write s.progress.toNat b
          acc := sumUpdate s.acc b
          progress := BitVec.ofNat 32 (s.progress.toNat + 1)
          timer := 0#32 }
      if s.progress.toNat + 1 = s.len34.toNat then { t with st := .rxCrc, idx := 0#5 } else t) := by
  have hp : s.progress + 1#32 = BitVec.ofNat 32 (s.progress.toNat + 1) := by bv_omega
  have hend : (BitVec.ofNat 32 (s.progress.toNat + 1)).setWidth 34 = s.len34 ↔
      s.progress.toNat + 1 = s.len34.toNat := by
    rw [setWidth_eq_len34_iff, BitVec.toNat_ofNat, Nat.mod_eq_of_lt hprog]
  simp only [rxPayloadGot, setPbufByte, if_pos hbuf, feedAcc, hp, hend, enter]

/-- Settles O60: the rule of RX_PAYLOAD, and PBUF read after its one write. -/
theorem payloadByteReceived : Obligations.PayloadByteReceived := by
  unfold Obligations.PayloadByteReceived
  intro s b more rest hp hscript hheld hst hbuf
  obtain ⟨-, -, hsize, -⟩ := hp
  refine ⟨s.pbuf.write s.progress.toNat b, ?_, fun a => pbufByte_write s _ a b⟩
  rw [step_rx hscript hheld, offerByte_rxPayload b (s := handedOver more rest s) hst,
    rxPayloadGot_eq b (s := handedOver more rest s) hbuf (show s.progress.toNat + 1 < 2 ^ 32 by omega),
    ← sumUpdate_eq_ofNat]
  rfl

/-- R264 for a run of bytes, from any PROGRESS, as the induction over the bytes needs it. -/
theorem offerByte_foldl_fills (bs : List Byte) {s : State} (hst : s.st = .rxPayload) (hne : bs ≠ [])
    (hlen : s.progress.toNat + bs.length = s.len34.toNat) (hfits : s.len34.toNat ≤ s.params.pbufBytes)
    (hsize : s.params.pbufBytes < 2 ^ 32) :
    ∃ m : Memory,
      bs.foldl (fun u b => offerByte b u) s =
        { s with
          st := .rxCrc
          idx := 0#5
          progress := BitVec.ofNat 32 s.len34.toNat
          timer := 0#32
          acc := sumBytes s.acc bs
          pbuf := m } ∧
      (∀ j (h : j < bs.length), pbufByte { s with pbuf := m } (s.progress.toNat + j) = bs[j]) ∧
      (∀ a, a < s.progress.toNat ∨ s.len34.toNat ≤ a → pbufByte { s with pbuf := m } a = pbufByte s a) := by
  induction bs generalizing s with
  | nil => exact absurd rfl hne
  | cons b bs ih =>
    rw [List.length_cons] at hlen
    rw [List.foldl_cons, offerByte_rxPayload b hst, rxPayloadGot_eq b (by omega) (by omega)]
    cases bs with
    | nil =>
      rw [List.length_nil] at hlen
      rw [if_pos hlen, hlen]
      refine ⟨_, rfl, fun j hj => ?_, fun a ha => ?_⟩
      · obtain rfl : j = 0 := by simpa using hj
        exact (pbufByte_write s _ _ b).trans (if_pos rfl)
      · rw [pbufByte_write, if_neg (by omega)]
    | cons c bs =>
      rw [List.length_cons] at hlen
      rw [if_neg (by omega)]
      have hnext : (BitVec.ofNat 32 (s.progress.toNat + 1)).toNat = s.progress.toNat + 1 := by
        rw [BitVec.toNat_ofNat, Nat.mod_eq_of_lt (by omega)]
      obtain ⟨m, hfold, hin, hout⟩ := ih
        (s := { s with
          pbuf := s.pbuf.write s.progress.toNat b
          acc := sumUpdate s.acc b
          progress := BitVec.ofNat 32 (s.progress.toNat + 1)
          timer := 0#32 })
        hst (List.cons_ne_nil _ _) (by simp only [hnext, List.length_cons]; omega) hfits hsize
      simp only [hnext] at hin hout
      refine ⟨m, hfold, fun j hj => ?_, fun a ha => ?_⟩
      · cases j with
        | zero => exact (hout _ (by omega)).trans ((pbufByte_write s _ _ b).trans (if_pos rfl))
        | succ j =>
          have hj' := hin j (by simpa using hj)
          rwa [show s.progress.toNat + 1 + j = s.progress.toNat + (j + 1) by omega] at hj'
      · exact (hout a (by omega)).trans ((pbufByte_write s _ a b).trans (if_neg (by omega)))

/-- Settles O33: the run fills the frame, whose end is inside the buffer. -/
theorem payloadStored : Obligations.PayloadStored := by
  unfold Obligations.PayloadStored
  intro bs s hp hst hne hlen hfits
  obtain ⟨-, -, hsize, -⟩ := hp
  exact offerByte_foldl_fills bs hst hne hlen hfits (by omega)

/-! ### Sending -/

section
variable {s : State}

theorem sendOn_txGap (hst : s.st = .txGap) : sendOn s = tickStep s := by simp [sendOn, hst]

theorem sendOn_txPayload (hst : s.st = .txPayload) :
    sendOn s = takeByte (pbufByte s s.progress.toNat) s := by simp [sendOn, hst, txData_txPayload hst]

/-- In the pause the sender's moves are the ticks (R225). -/
theorem sendOn_iterate_gap (hst : s.st = .txGap) (htimer : s.timer = 0#32) {n : Nat}
    (hn : n ≤ s.settings.gap.toNat) : sendOn^[n] s = tickStep^[n] s := by
  induction n with
  | zero => rfl
  | succ n ih =>
    rw [Function.iterate_succ_apply', Function.iterate_succ_apply', ih (by omega),
      tickStep_iterate_gap hst htimer (by omega)]
    exact sendOn_txGap hst

theorem sendOn_gap_ends (hst : s.st = .txGap) (htimer : s.timer = 0#32) (hgap : s.settings.gap ≠ 0#32) {n : Nat}
    (hn : n = s.settings.gap.toNat) :
    sendOn^[n] s =
      { s with st := if s.progress.toNat = s.len34.toNat then .txDrain else .txPayload, timer := 0#32 } := by
  rw [hn, sendOn_iterate_gap hst htimer le_rfl, (gapLastsExactly s hst htimer hgap).2]

/-- `s` after the byte at PROGRESS has gone out, with its chunk's pause, if it ends one, over. -/
def payloadByteOut (c : BitVec 4) (v : Word) (s : State) : State :=
  { s with
    st := if s.progress.toNat + 1 = s.len34.toNat then .txDrain else .txPayload
    chunkCnt := c
    timer := v
    acc := sumUpdate s.acc (pbufByte s s.progress.toNat)
    progress := BitVec.ofNat 32 (s.progress.toNat + 1)
    link := { s.link with wire := s.link.wire ++ [pbufByte s s.progress.toNat] } }

/-- One byte goes out, and whatever GAP is, a finite number of moves later the next one follows, or TX_DRAIN. -/
theorem sendOn_byte_out (hst : s.st = .txPayload) (hprog : s.progress.toNat + 1 < 2 ^ 32) :
    ∃ n c v, sendOn^[n] s = payloadByteOut c v s := by
  have hnext : (BitVec.ofNat 32 (s.progress.toNat + 1)).toNat = s.progress.toNat + 1 := by
    rw [BitVec.toNat_ofNat, Nat.mod_eq_of_lt hprog]
  have hsend := (sendOn_txPayload hst).trans
    ((takeByte_txPayload hst (txData_txPayload hst)).trans (txPayloadSent_eq _ hprog))
  rw [← sumUpdate_eq_ofNat] at hsend
  dsimp only at hsend
  split_ifs at hsend with hchunk hgap hend
  · refine ⟨s.settings.gap.toNat + 1, 0#4, 0#32, ?_⟩
    rw [Function.iterate_succ_apply, hsend, sendOn_gap_ends]
    case hst | htimer | hn => rfl
    case hgap => exact hgap
    simp only [payloadByteOut, hnext]
  · exact ⟨1, 0#4, 0#32, by simp only [Function.iterate_one, hsend, payloadByteOut, if_pos hend]⟩
  · exact ⟨1, 0#4, s.timer, by
      simp only [Function.iterate_one, hsend, payloadByteOut, if_neg hend, hst]⟩
  · have hend : ¬s.progress.toNat + 1 = s.len34.toNat := fun h => hchunk (.inr h)
    exact ⟨1, BitVec.ofNat 4 (s.chunkCnt.toNat + 1), s.timer, by
      simp only [Function.iterate_one, hsend, payloadByteOut, if_neg hend, hst]⟩

theorem pbufBytesFrom_congr {t : State} (h : ∀ a, pbufByte t a = pbufByte s a) (off n : Nat) :
    pbufBytesFrom t off n = pbufBytesFrom s off n := by
  induction n generalizing off with
  | zero => rfl
  | succ n ih => rw [pbufBytesFrom, pbufBytesFrom, h, ih]

/-- The rest of the payload goes out, by induction on the number of bytes left. -/
theorem sendOn_payload_out (k : Nat) (hst : s.st = .txPayload) (hk : s.progress.toNat + (k + 1) = s.len34.toNat)
    (hlen : s.len34.toNat < 2 ^ 32) :
    ∃ n, (sendOn^[n] s).st = .txDrain ∧
      (sendOn^[n] s).link.wire = s.link.wire ++ pbufBytesFrom s s.progress.toNat (k + 1) ∧
      (sendOn^[n] s).acc = sumBytes s.acc (pbufBytesFrom s s.progress.toNat (k + 1)) ∧
      (sendOn^[n] s).pbuf = s.pbuf := by
  obtain ⟨n, c, v, hn⟩ := sendOn_byte_out hst (by omega)
  induction k generalizing s n c v with
  | zero =>
    refine ⟨n, ?_⟩
    rw [hn]
    exact ⟨if_pos hk, rfl, rfl, rfl⟩
  | succ k ih =>
    have hprog : (payloadByteOut c v s).progress.toNat = s.progress.toNat + 1 := by
      simp only [payloadByteOut, BitVec.toNat_ofNat]
      omega
    have hout : (payloadByteOut c v s).st = .txPayload := if_neg (by omega)
    obtain ⟨n', c', v', hn'⟩ := sendOn_byte_out hout (by omega)
    obtain ⟨m, hdrain, hwire, hacc, hpbuf⟩ :=
      ih hout (by rw [hprog]; exact (Nat.add_right_comm _ _ _).trans hk) hlen n' c' v' hn'
    rw [hprog, pbufBytesFrom_congr (s := s) (t := payloadByteOut c v s) (fun a => rfl)] at hwire hacc
    refine ⟨m + n, ?_⟩
    rw [Function.iterate_add_apply, hn]
    refine ⟨hdrain, hwire.trans ?_, hacc, hpbuf⟩
    simp [payloadByteOut, pbufBytesFrom]

end

/-- Settles O30: a legal position in TX_PAYLOAD has a byte left, and the length fits in the buffer. -/
theorem payloadReachesWire : Obligations.PayloadReachesWire := by
  unfold Obligations.PayloadReachesWire
  intro s hp hpos hst
  obtain ⟨-, -, hsize, -⟩ := hp
  simp only [PositionInv, hst] at hpos
  obtain ⟨-, -, hlt, w, -, -, hfits⟩ := hpos
  obtain ⟨k, hk⟩ : ∃ k, s.len34.toNat - s.progress.toNat = k + 1 :=
    Nat.exists_eq_succ_of_ne_zero (by omega)
  rw [hk]
  exact sendOn_payload_out k hst (by omega) (by omega)

end Sys2Proof.Machine
end

section
/-!
The host register map (spec/10_state.md R38): what each register reads as, what a plain write stores, what a write is
dropped or ignored for, and the offsets that hold nothing (R39, R78).
-/

namespace Sys2Proof.Machine

/-! ### The offsets that hold nothing -/

theorem regOffset_aligned (r : Reg) : regOffset r % 4 = 0 ∧ regOffset r ≤ 0x078 := by cases r <;> decide

theorem lt_of_regAt {p : Params} {off : Nat} {r : Reg} (h : regAt p off = some r) : off < 2 ^ p.hostAddrW := by
  by_contra hlt
  rw [regAt, if_neg hlt] at h
  cases h

theorem windowIndex_reserved {p : Params} {off : Nat}
    (h : off % 4 ≠ 0 ∨ (0x07C ≤ off ∧ off < 0x1000) ∨ 0x1000 + p.pbufBytes ≤ off ∨ 2 ^ p.hostAddrW ≤ off) :
    windowIndex p off = none := by
  rw [windowIndex, Config.windowBase, if_neg]
  omega

theorem regAt_reserved {p : Params} {off : Nat}
    (h : off % 4 ≠ 0 ∨ (0x07C ≤ off ∧ off < 0x1000) ∨ 0x1000 + p.pbufBytes ≤ off ∨ 2 ^ p.hostAddrW ≤ off) :
    regAt p off = none := by
  cases hr : regAt p off with
  | none => rfl
  | some r =>
    have hoff := regOffset_of_regAt hr
    have hlt := lt_of_regAt hr
    obtain ⟨hmod, hle⟩ := regOffset_aligned r
    omega

/-- Settles O17: neither the window nor a register is there. -/
theorem reservedOffsets : Obligations.ReservedOffsets := by
  unfold Obligations.ReservedOffsets
  intro off v s h
  rw [exec_regRead, exec_regWrite, hostRead, hostWrite, windowIndex_reserved h, regAt_reserved h]
  exact ⟨rfl, rfl⟩

/-! ### Reading -/

theorem exec_regRead_value {s : State} (hp : s.params.wf) {r : Reg} (hr : r ≠ .elemData) {n : Nat}
    (hval : regValue s r = BitVec.ofNat 32 n) :
    exec (.regRead (regOffset r)) s = .next { s with readData := BitVec.ofNat 32 n } := by
  rw [exec_regRead, hostRead_regOffset hp, regLoad, if_neg hr, hval, returnWord]

theorem stCode_toNat (x : St) : (stCode x).toNat = stateNumber x := by cases x <;> rfl

theorem errCodeBits_toNat (c : ErrCode) : (errCodeBits c).toNat = errorNumber c := by cases c <;> rfl

theorem errWaitBits_toNat (w : ErrWait) : (errWaitBits w).toNat = waitNumber w := by cases w <;> rfl

theorem busy_toNat (s : State) : (busy s).toNat = (decide (s.st ≠ .idle)).toNat := by
  cases hst : s.st <;> simp [busy, hst]

/-- STATUS as the sum of its fields at their places (R42). -/
theorem statusWord_toNat (s : State) :
    (statusWord s).toNat =
      (decide (s.st ≠ .idle)).toNat + 2 * s.status.done.toNat + 4 * s.status.error.toNat +
        8 * s.status.cmdRej.toNat + 16 * s.status.hostConflict.toNat + 32 * s.status.elemErr.toNat +
        64 * s.status.crcMatch.toNat + 128 * s.link.linkOpen.toNat + 256 * errorNumber s.status.errCode +
        4096 * waitNumber s.status.errWait + 65536 * stateNumber s.st := by
  simp only [statusWord, append_toNat, BitVec.toNat_ofBool, stCode_toNat, errCodeBits_toNat, errWaitBits_toNat,
    busy_toNat, BitVec.toNat_ofNat]
  omega

theorem word_eq_ofNat (v : Word) : v = BitVec.ofNat 32 v.toNat := by rw [BitVec.ofNat_toNat, BitVec.setWidth_eq]

theorem rxFmt_value (code raw : Byte) : 0#16 ++ code ++ raw = BitVec.ofNat 32 (raw.toNat + 256 * code.toNat) := by
  have hcode := code.isLt
  have hraw := raw.isLt
  apply BitVec.eq_of_toNat_eq
  rw [append_toNat, append_toNat, BitVec.toNat_ofNat, BitVec.toNat_ofNat]
  omega

theorem len_value (len : Len34) : len.extractLsb' 0 32 = BitVec.ofNat 32 (len.toNat % 2 ^ 32) := by
  apply BitVec.eq_of_toNat_eq
  rw [BitVec.extractLsb'_toNat, Nat.shiftRight_zero, BitVec.toNat_ofNat, Nat.mod_mod]

theorem lenHi_value (len : Len34) :
    (len.extractLsb' 32 2).setWidth 32 = BitVec.ofNat 32 (len.toNat / 2 ^ 32) := by
  have hlen := len.isLt
  apply BitVec.eq_of_toNat_eq
  rw [BitVec.toNat_setWidth, BitVec.extractLsb'_toNat, BitVec.toNat_ofNat, Nat.shiftRight_eq_div_pow]
  omega

theorem cfg_value (stray ack : Bool) :
    0#30 ++ BitVec.ofBool ack ++ BitVec.ofBool stray = BitVec.ofNat 32 (stray.toNat + 2 * ack.toNat) := by
  cases stray <;> cases ack <;> rfl

/-- Settles O16: each register's value as a number. -/
theorem registersRead : Obligations.RegistersRead := by
  unfold Obligations.RegistersRead
  intro s hp
  have read : ∀ {r : Reg} {n : Nat}, r ≠ .elemData → regValue s r = BitVec.ofNat 32 n →
      exec (.regRead (regOffset r)) s = .next { s with readData := BitVec.ofNat 32 n } :=
    fun hr hval => exec_regRead_value hp hr hval
  have byte : ∀ {r : Reg} {w : Nat} {b : BitVec w}, r ≠ .elemData → regValue s r = b.setWidth 32 →
      exec (.regRead (regOffset r)) s = .next { s with readData := BitVec.ofNat 32 b.toNat } :=
    fun hr hval => read hr (hval.trans (BitVec.ofNat_toNat 32 _).symm)
  have word : ∀ {r : Reg}, r ≠ .elemData →
      exec (.regRead (regOffset r)) s = .next { s with readData := BitVec.ofNat 32 (regValue s r).toNat } :=
    fun hr => read hr (word_eq_ofNat _)
  simp only [List.forall_mem_cons, List.not_mem_nil, false_implies, implies_true, and_true]
  exact ⟨read (r := .ctrl) nofun rfl, read (r := .cmd) nofun rfl,
    read (r := .status) nofun ((word_eq_ofNat _).trans (congrArg _ (statusWord_toNat s))),
    byte (r := .txFmt) nofun rfl, byte (r := .txTag) nofun rfl, word (r := .txCount) nofun,
    read (r := .rxFmt) nofun (rxFmt_value _ _), byte (r := .rxTag) nofun rfl, word (r := .rxCount) nofun,
    read (r := .len) nofun (len_value _), read (r := .lenHi) nofun (lenHi_value _), word (r := .progress) nofun,
    word (r := .timer) nofun, byte (r := .crcAcc) nofun rfl, read (r := .crcFeed) nofun rfl,
    byte (r := .crcRx) nofun rfl, word (r := .readyDl) nofun, word (r := .ackDl) nofun, word (r := .syncDl) nofun,
    word (r := .byteDl) nofun, word (r := .gap) nofun, read (r := .cfg) nofun (cfg_value _ _),
    byte (r := .tokenLen) nofun rfl, word (r := .token0) nofun, word (r := .token1) nofun,
    word (r := .token2) nofun, word (r := .token3) nofun, byte (r := .elemFmt) nofun rfl,
    word (r := .elemIdx) nofun, read (r := .pbufSize) nofun rfl⟩

/-! ### Writing -/

theorem lockedWrite_of_idle {s : State} (f : State → State) (hst : s.st = .idle) : lockedWrite f s = f s :=
  lockedWrite_idle s ((busy_eq_false_iff s).mpr hst)

theorem lockedWrite_of_busy {s : State} (f : State → State) (hst : s.st ≠ .idle) : lockedWrite f s = hostConflict s :=
  lockedWrite_busy s ((busy_eq_true_iff s).mpr hst)

theorem exec_regWrite_reg {s : State} (hp : s.params.wf) (r : Reg) (v : Word) :
    exec (.regWrite (regOffset r) v) s = .next (regStore r v s) := by
  rw [exec_regWrite, hostWrite_regOffset hp]

theorem lowByte_eq_ofNat (v : Word) : (v.extractLsb' 0 8 : Byte) = BitVec.ofNat 8 v.toNat := by
  rw [BitVec.extractLsb', Nat.shiftRight_zero]

theorem legalTokenLen_eq (v : Word) : legalTokenLen v = BitVec.ofNat 5 (min (v.toNat % 32) 16) := by
  have hlow : (v.extractLsb' 0 5).toNat = v.toNat % 32 := by rw [BitVec.extractLsb'_toNat, Nat.shiftRight_zero]
  apply BitVec.eq_of_toNat_eq
  rw [legalTokenLen, BitVec.toNat_ofNat]
  split
  case isTrue h =>
    have hgt : 16 < v.toNat % 32 := hlow ▸ h
    rw [BitVec.toNat_ofNat]
    omega
  case isFalse h =>
    have hle : v.toNat % 32 ≤ 16 := hlow ▸ BitVec.not_lt.mp h
    rw [hlow]
    omega

/-- Settles O18: the defined bits of v in each register's field. -/
theorem plainWritesStore : Obligations.PlainWritesStore := by
  unfold Obligations.PlainWritesStore
  intro v s hp
  refine ⟨fun hst => ?settings, ?elemFmt, ?elemIdx⟩
  case settings =>
    have store : ∀ {r : Reg} {c : Settings}, regStore r v s = lockedWrite (writeSetting r v) s →
        storeSetting r v s.settings = c → exec (.regWrite (regOffset r) v) s = .next { s with settings := c } := by
      intro r c hlocked hc
      rw [exec_regWrite_reg hp, hlocked, lockedWrite_of_idle _ hst, writeSetting, hc]
    rw [← legalTokenLen_eq, ← lowByte_eq_ofNat]
    simp only [List.forall_mem_cons, List.not_mem_nil, false_implies, implies_true, and_true]
    exact ⟨store (r := .txFmt) rfl rfl, store (r := .txTag) rfl rfl, store (r := .txCount) rfl rfl,
      store (r := .readyDl) rfl rfl, store (r := .ackDl) rfl rfl, store (r := .syncDl) rfl rfl,
      store (r := .byteDl) rfl rfl, store (r := .gap) rfl rfl, store (r := .cfg) rfl rfl,
      store (r := .tokenLen) rfl rfl, store (r := .token0) rfl rfl, store (r := .token1) rfl rfl,
      store (r := .token2) rfl rfl, store (r := .token3) rfl rfl⟩
  case elemFmt =>
    rw [← lowByte_eq_ofNat]
    exact exec_regWrite_reg hp .elemFmt v
  case elemIdx => exact exec_regWrite_reg hp .elemIdx v

/-- Settles O19: the lock for the settings, and no effect for the read-only registers and an empty CTRL write. -/
theorem writesDroppedOrIgnored : Obligations.WritesDroppedOrIgnored := by
  unfold Obligations.WritesDroppedOrIgnored
  intro v s hp
  refine ⟨fun hst => ?dropped, ?readOnly, fun hcancel hclear => ?ctrl⟩
  case dropped =>
    have drop : ∀ {r : Reg}, regStore r v s = lockedWrite (writeSetting r v) s →
        exec (.regWrite (regOffset r) v) s = .next (hostConflict s) := by
      intro r hlocked
      rw [exec_regWrite_reg hp, hlocked, lockedWrite_of_busy _ hst]
    simp only [List.forall_mem_cons, List.not_mem_nil, false_implies, implies_true, and_true]
    exact ⟨drop (r := .txFmt) rfl, drop (r := .txTag) rfl, drop (r := .txCount) rfl, drop (r := .readyDl) rfl,
      drop (r := .ackDl) rfl, drop (r := .syncDl) rfl, drop (r := .byteDl) rfl, drop (r := .gap) rfl,
      drop (r := .cfg) rfl, drop (r := .tokenLen) rfl, drop (r := .token0) rfl, drop (r := .token1) rfl,
      drop (r := .token2) rfl, drop (r := .token3) rfl⟩
  case readOnly =>
    have ignore : ∀ r : Reg, regStore r v s = s → exec (.regWrite (regOffset r) v) s = .next s := by
      intro r hignored
      rw [exec_regWrite_reg hp, hignored]
    simp only [List.forall_mem_cons, List.not_mem_nil, false_implies, implies_true, and_true]
    exact ⟨ignore .status rfl, ignore .rxFmt rfl, ignore .rxTag rfl, ignore .rxCount rfl, ignore .len rfl,
      ignore .lenHi rfl, ignore .progress rfl, ignore .timer rfl, ignore .crcAcc rfl, ignore .crcRx rfl,
      ignore .pbufSize rfl⟩
  case ctrl =>
    calc exec (.regWrite 0x000 v) s
      _ = .next (regStore .ctrl v s) := exec_regWrite_reg hp .ctrl v
      _ = .next s := by
        rw [regStore, hcancel, hclear]
        rfl

end Sys2Proof.Machine
end

section
/-!
Elements and the PBUF window (spec/41_frame_codec.md R178 to R182; spec/20_memory.md R72 to R74): what the host's
accesses to PBUF read and store.
-/

namespace Sys2Proof.Machine

/-! ### Numbers in PBUF -/

theorem pbufNumber_lt (s : State) (off n : Nat) : pbufNumber s off n < 256 ^ n := by
  induction n generalizing off with
  | zero => simp [pbufNumber]
  | succ n ih =>
    have hb := (pbufByte s off).isLt
    have hrest := ih (off + 1)
    rw [pbufNumber, pow_succ]
    omega

/-- Bytes that are a number's, byte by byte, are that number, as far as they go (R73, R74). -/
theorem pbufNumber_of_bytes {s : State} {off n : Nat} {x : Nat}
    (h : ∀ j < n, pbufByte s (off + j) = BitVec.ofNat 8 (x / 256 ^ j)) : pbufNumber s off n = x % 256 ^ n := by
  induction n generalizing off x with
  | zero => rw [pbufNumber, pow_zero, Nat.mod_one]
  | succ n ih =>
    have hfirst := h 0 (by omega)
    have hrest : ∀ j < n, pbufByte s (off + 1 + j) = BitVec.ofNat 8 (x / 256 / 256 ^ j) := fun j hj => by
      rw [Nat.div_div_eq_div_mul, ← pow_succ', ← h (j + 1) (by omega), Nat.add_assoc, Nat.add_comm 1 j]
    rw [Nat.add_zero, pow_zero, Nat.div_one] at hfirst
    rw [pbufNumber, hfirst, ih hrest, BitVec.toNat_ofNat, pow_succ' 256 n, Nat.mod_mul]

/-- What `MemWrite` stores, byte by byte as numbers, and that no other byte changes (R74). -/
theorem pbufByte_memWrite_eq {n off : Nat} (c : Nat) (v : Word) {s : State} (h : off + n ≤ s.params.pbufBytes) :
    pbufByte (memWrite off v n s) c =
      if off ≤ c ∧ c < off + n then BitVec.ofNat 8 (v.toNat / 256 ^ (c - off)) else pbufByte s c := by
  rw [pbufByte_memWrite n off c v s h, ← byteOf_eq_ofNat, byteOf]

/-- `MemRead` after `MemWrite` at the same place: the low bytes of the value written. -/
theorem memRead_memWrite {n off : Nat} (v : Word) {s : State} (hn : n ≤ 4) (h : off + n ≤ s.params.pbufBytes) :
    (memRead (memWrite off v n s) off n).toNat = v.toNat % 256 ^ n := by
  rw [memRead_toNat _ _ _ hn]
  refine pbufNumber_of_bytes fun j hj => ?_
  rw [pbufByte_memWrite_eq _ v h, if_pos (by omega), Nat.add_sub_cancel_left]

/-! ### The element that ELEM_FMT and ELEM_IDX name -/

/-- The codes whose elements are signed (R105): the odd ones. -/
def isSigned : FormatCode → Bool
  | .uint8 | .uint16 | .uint32 => false
  | .int8 | .int16 | .int32 => true

theorem isSigned_of_formatOf {b : Byte} {f : FormatCode} (h : formatOf b = some f) :
    isSigned f = decide (b.toNat % 2 = 1) := by
  have key : ∀ b : Byte, (formatOf b).all (fun f => isSigned f == decide (b.toNat % 2 = 1)) = true := by decide
  simpa [h] using key b

theorem width_le_four (f : FormatCode) : width f ≤ 4 := by cases f <;> decide

/-- R178: an unsigned element is its number. -/
theorem elemDecode_unsigned {f : FormatCode} {raw : Word} (hf : isSigned f = false)
    (hraw : raw.toNat < 256 ^ width f) : (elemDecode f raw).toNat = raw.toNat := by
  cases f with
  | int8 | int16 | int32 => cases hf
  | uint8 | uint16 =>
    simp only [elemDecode, width, BitVec.toNat_setWidth] at hraw ⊢
    omega
  | uint32 => rfl

/-- R178: a signed element is its number in two's complement. -/
theorem elemDecode_signed {f : FormatCode} {raw : Word} (hf : isSigned f = true)
    (hraw : raw.toNat < 256 ^ width f) :
    (elemDecode f raw).toInt =
      if raw.toNat < 2 ^ (8 * width f - 1) then (raw.toNat : Int) else (raw.toNat : Int) - 2 ^ (8 * width f) := by
  cases f with
  | uint8 | uint16 | uint32 => cases hf
  | int8 | int16 =>
    simp only [elemDecode, width] at hraw ⊢
    rw [BitVec.toInt_signExtend_of_le (by decide), BitVec.toInt_eq_toNat_cond, BitVec.toNat_setWidth,
      Nat.mod_eq_of_lt (by omega)]
    split_ifs <;> omega
  | int32 =>
    simp only [elemDecode, width]
    rw [BitVec.toInt_eq_toNat_cond]
    split_ifs <;> omega

section
variable {s : State}

theorem elemAt_of_specWidth {w : Nat} (hfmt : specWidth s.elemFmt = some w)
    (hin : s.elemIdx.toNat * w + w ≤ s.params.pbufBytes) :
    ∃ f, formatOf s.elemFmt = some f ∧ width f = w ∧ elemAt s = some (f, s.elemIdx.toNat * w) := by
  obtain ⟨f, hf, rfl⟩ := (specWidth_eq_some_iff _ _).mp hfmt
  exact ⟨f, hf, rfl, by rw [elemAt, hf]; exact if_pos hin⟩

theorem elemAt_invalid (h : ∀ w, specWidth s.elemFmt = some w → s.params.pbufBytes < s.elemIdx.toNat * w + w) :
    elemAt s = none := by
  cases hf : formatOf s.elemFmt with
  | none => rw [elemAt, hf]
  | some f =>
    have hlong := h (width f) ((specWidth_eq_some_iff _ _).mpr ⟨f, hf, rfl⟩)
    rw [elemAt, hf]
    exact if_neg (by omega)

theorem exec_elemRead (s : State) : exec .elemRead s = .next (elemDataRead s) := rfl

theorem exec_elemWrite (v : Word) (s : State) : exec (.elemWrite v) s = .next (lockedWrite (elemStore v) s) := rfl

theorem elemDataRead_of_elemAt {f : FormatCode} {off : Nat} (h : elemAt s = some (f, off)) :
    elemDataRead s = { s with readData := elemDecode f (memRead s off (width f)) } := by
  rw [elemDataRead, h]
  rfl

theorem elemDataRead_of_none (h : elemAt s = none) :
    elemDataRead s = { s with readData := 0#32, status := { s.status with elemErr := true } } := by
  rw [elemDataRead, h]
  rfl

theorem elemStore_of_elemAt {f : FormatCode} {off : Nat} (v : Word) (h : elemAt s = some (f, off)) :
    elemStore v s = memWrite off v (width f) s := by rw [elemStore, h]

theorem elemStore_of_none (v : Word) (h : elemAt s = none) :
    elemStore v s = { s with status := { s.status with elemErr := true } } := by
  rw [elemStore, h, elemError]

end

/-! ### The obligations -/

/-- Settles O11: the element's number, decoded by its code. -/
theorem elemReadDecodes : Obligations.ElemReadDecodes := by
  unfold Obligations.ElemReadDecodes
  intro s w hfmt hin
  obtain ⟨f, hf, rfl, hat⟩ := elemAt_of_specWidth hfmt hin
  have hsigned := isSigned_of_formatOf hf
  have hnum := memRead_toNat (width f) (s.elemIdx.toNat * width f) s (width_le_four f)
  have hlt : (memRead s (s.elemIdx.toNat * width f) (width f)).toNat < 256 ^ width f := hnum ▸ pbufNumber_lt s _ _
  rw [exec_elemRead, elemDataRead_of_elemAt hat]
  refine ⟨_, rfl, fun heven => ?unsigned, fun hodd => ?signed⟩
  case unsigned => rw [elemDecode_unsigned (by simpa [heven] using hsigned) hlt, hnum]
  case signed => rw [elemDecode_signed (by simpa [hodd] using hsigned) hlt, hnum]

/-- Settles O12: no element, and the lock before it. -/
theorem invalidElementAccess : Obligations.InvalidElementAccess := by
  unfold Obligations.InvalidElementAccess
  intro v s
  rw [exec_elemRead, exec_elemWrite]
  refine ⟨fun hinvalid => ⟨?read, fun hst => ?write⟩, fun hst => ?busy⟩
  case read => rw [elemDataRead_of_none (elemAt_invalid hinvalid)]
  case write => rw [lockedWrite_of_idle _ hst, elemStore_of_none v (elemAt_invalid hinvalid)]
  case busy => rw [lockedWrite_of_busy _ hst, hostConflict]

/-- An element write in IDLE, in range, is a `MemWrite` at the element's offset (R181). -/
theorem exec_elemWrite_in_range (v : Word) {s : State} {f : FormatCode} {off : Nat} (hst : s.st = .idle)
    (hat : elemAt s = some (f, off)) :
    exec (.elemWrite v) s = .next { s with pbuf := (memWrite off v (width f) s).pbuf } := by
  rw [exec_elemWrite, lockedWrite_of_idle _ hst, elemStore_of_elemAt v hat, memWrite_frame]

theorem pbufByte_with_memWrite (off n : Nat) (v : Word) (s : State) (a : Nat) :
    pbufByte { s with pbuf := (memWrite off v n s).pbuf } a = pbufByte (memWrite off v n s) a := by
  conv_rhs => rw [memWrite_frame]

/-- Settles O13: the write is a `MemWrite`, and PBUF is read after it. -/
theorem elemWriteStores : Obligations.ElemWriteStores := by
  unfold Obligations.ElemWriteStores
  intro v s w hst hfmt hin
  obtain ⟨f, -, rfl, hat⟩ := elemAt_of_specWidth hfmt hin
  refine ⟨_, exec_elemWrite_in_range v hst hat, fun a => ?_⟩
  rw [pbufByte_with_memWrite, pbufByte_memWrite_eq a v hin]

theorem exec_winRead (k : Nat) (s : State) : exec (.winRead k) s = .next (windowRead k s) := rfl

theorem exec_winWrite (k : Nat) (v : Word) (s : State) : exec (.winWrite k v) s = .next (windowWrite k v s) := rfl

/-- Settles O14: the window word is four bytes of PBUF. -/
theorem windowWords : Obligations.WindowWords := by
  unfold Obligations.WindowWords
  intro k v s hk
  rw [exec_winRead, exec_winWrite, windowRead, windowWrite, if_pos hk, if_pos hk]
  refine ⟨⟨_, rfl, memRead_toNat 4 (4 * k) s le_rfl⟩, fun hst => ?write, fun hst => ?busy⟩
  case write =>
    rw [lockedWrite_of_idle _ hst]
    refine ⟨_, congrArg _ (memWrite_frame 4 (4 * k) v s), fun a => ?_⟩
    rw [pbufByte_with_memWrite, pbufByte_memWrite_eq a v hk]
  case busy => rw [lockedWrite_of_busy _ hst, hostConflict]

/-- A value in its format's range is what its low bytes decode to (R108, R178). -/
theorem elemDecode_of_in_range {f : FormatCode} {raw v : Word} (hraw : raw.toNat = v.toNat % 256 ^ width f)
    (hunsigned : isSigned f = false → v.toNat < 2 ^ (8 * width f))
    (hsigned : isSigned f = true →
      -(2 ^ (8 * width f - 1) : Int) ≤ v.toInt ∧ v.toInt < (2 ^ (8 * width f - 1) : Int)) :
    elemDecode f raw = v := by
  have hlt : raw.toNat < 256 ^ width f := hraw ▸ Nat.mod_lt _ (Nat.pow_pos (by decide))
  cases hs : isSigned f with
  | false =>
    have hv := hunsigned hs
    rw [pow_mul, show 2 ^ 8 = 256 from rfl] at hv
    exact BitVec.eq_of_toNat_eq (by rw [elemDecode_unsigned hs hlt, hraw, Nat.mod_eq_of_lt hv])
  | true =>
    obtain ⟨hlow, hhigh⟩ := hsigned hs
    have hv := v.isLt
    apply BitVec.eq_of_toInt_eq
    rw [elemDecode_signed hs hlt, hraw]
    rw [BitVec.toInt_eq_toNat_cond] at hlow hhigh ⊢
    cases f with
    | uint8 | uint16 | uint32 => cases hs
    | int8 | int16 | int32 =>
      simp only [width] at hlow hhigh ⊢
      split_ifs at hlow hhigh ⊢ <;> omega

/-- Which element is named does not depend on PBUF, so a read after a write is of the same bytes (R179). -/
theorem exec_elemRead_with_pbuf (m : Memory) {s : State} {f : FormatCode} {off : Nat} (h : elemAt s = some (f, off)) :
    exec .elemRead { s with pbuf := m } = .next
      { s with pbuf := m, readData := elemDecode f (memRead { s with pbuf := m } off (width f)) } := by
  rw [exec_elemRead, elemDataRead_of_elemAt (s := { s with pbuf := m }) h]

/-- Settles O15: the write stores the value's low bytes, and the read decodes them. -/
theorem elementRoundTrip : Obligations.ElementRoundTrip := by
  unfold Obligations.ElementRoundTrip
  intro v s w hst hfmt hin hunsigned hsigned
  obtain ⟨f, hf, rfl, hat⟩ := elemAt_of_specWidth hfmt hin
  have hparity := isSigned_of_formatOf hf
  have hraw := memRead_memWrite v (width_le_four f) hin
  rw [memWrite_frame] at hraw
  refine ⟨_, exec_elemWrite_in_range v hst hat, ?_⟩
  rw [exec_elemRead_with_pbuf _ hat, elemDecode_of_in_range hraw (fun hs => hunsigned (by simpa [hs] using hparity))
    (fun hs => hsigned (by simpa [hs] using hparity))]

end Sys2Proof.Machine
end

section
/-!
What one step can change, once: for each kind of event, every change it may make to the state it meets, with the
condition under which it makes it. The invariants are read off these lists, and no proof of one opens an operation.
-/

namespace Sys2Proof.Machine

/-! ### The lists -/

/-- What a host access may do to the state (R38, R144, R153 to R156). -/
inductive HostMove (s : State) : State → Prop
  /-- the sticky bits, the element registers and the value returned: nothing that a transfer reads -/
  | quiet (rej conflict elem : Bool) (fmt : Byte) (idx v : Word) :
    HostMove s
      { s with
        status := { s.status with cmdRej := rej, hostConflict := conflict, elemErr := elem }
        elemFmt := fmt
        elemIdx := idx
        readData := v }
  | cleared : s.st = .idle → HostMove s { s with status := Status.reset }
  | cancelled (rej conflict elem : Bool) : s.st ≠ .idle →
    HostMove s
      (aborted .cancelled .none
        { s with status := { s.status with cmdRej := rej, hostConflict := conflict, elemErr := elem } })
  | summed (acc : Sum16) : s.st = .idle → HostMove s { s with acc := acc }
  | stored (r : Reg) (v : Word) : s.st = .idle → HostMove s (writeSetting r v s)
  | wrote (off n : Nat) (v : Word) : s.st = .idle → HostMove s (memWrite off v n s)
  | startFailed (code : ErrCode) (len : Len34) : s.st = .idle → (code, ErrWait.none) ∈ errorPairs →
    HostMove s (failedStart code len s)
  | sendStarted (w : Nat) : s.st = .idle → specWidth s.settings.txFmt = some w →
    s.settings.txCount.toNat * w ≤ s.params.pbufBytes →
    HostMove s
      (enter .txHdr (initAcc { startTransfer s with len34 := BitVec.ofNat 34 (s.settings.txCount.toNat * w) }))
  | recvStarted : s.st = .idle → HostMove s (enter .rxWaitSync (initAcc { startTransfer s with crcRx := 0#16 }))
  | tokenStarted : s.st = .idle →
    HostMove s
      (enter (if s.settings.tokenLen = 0#5 then .tokWait else .tokSend)
        { startTransfer s with len34 := BitVec.ofNat 34 s.settings.tokenLen.toNat })

/-- What the transport's offer of the byte `b` may do to the state that the byte has left the transport in (R143). -/
inductive RxMove (b : Byte) (s : State) : State → Prop
  | keptBack : RxMove b s { s with link := { s.link with held := b :: s.link.held } }
  | discarded : RxMove b s s
  | stray (wait : ErrWait) : s.st ≠ .idle → (ErrCode.protocol, wait) ∈ errorPairs →
    RxMove b s (aborted .protocol wait s)
  | finished : s.st ≠ .idle → RxMove b s (completed s)
  | emptyReady : s.st = .txWaitReady → s.len34 = 0#34 → RxMove b s (enter .txDrain s)
  | payloadReady : s.st = .txWaitReady → s.len34 ≠ 0#34 → RxMove b s (enter .txPayload { s with chunkCnt := 0#4 })
  | synced : s.st = .rxWaitSync → RxMove b s (enter .rxHdr { s with idx := 0#5 })
  | header (h : Vector Byte 6) : s.st = .rxHdr → s.idx ≠ 5#5 →
    RxMove b s { s with hdr := h, idx := s.idx + 1#5, timer := 0#32 }
  | headerInvalid (h : Vector Byte 6) : s.st = .rxHdr →
    RxMove b s (aborted .protocol .header (headerRecorded { s with hdr := h, idx := 6#5, timer := 0#32 }))
  | headerLong (h : Vector Byte 6) (len : Len34) : s.st = .rxHdr →
    RxMove b s
      (aborted .capacity .header
        { headerRecorded { s with hdr := h, idx := 6#5, timer := 0#32 } with len34 := len })
  | headerFits (w : Nat) (u : State) : s.st = .rxHdr →
    (∃ h, u = headerRecorded { s with hdr := h, idx := 6#5, timer := 0#32 }) → specWidth u.rxCode = some w →
    u.rxCount.toNat * w ≤ s.params.pbufBytes →
    RxMove b s (enter .rxReady { u with len34 := BitVec.ofNat 34 (u.rxCount.toNat * w), idx := 0#5 })
  | payload (u : State) : s.st = .rxPayload → u = setPbufByte s.progress.toNat b s →
    (s.progress + 1#32).toNat ≠ s.len34.toNat →
    RxMove b s { u with acc := sumUpdate s.acc b, progress := s.progress + 1#32, timer := 0#32 }
  | payloadLast (u : State) : s.st = .rxPayload → u = setPbufByte s.progress.toNat b s →
    (s.progress + 1#32).toNat = s.len34.toNat →
    RxMove b s
      { u with
        st := .rxCrc, idx := 0#5, acc := sumUpdate s.acc b, progress := s.progress + 1#32, timer := 0#32 }
  | crc (sum : Sum16) : s.st = .rxCrc → s.idx ≠ 1#5 →
    RxMove b s { s with crcRx := sum, idx := s.idx + 1#5, timer := 0#32 }
  | crcLast (sum : Sum16) : s.st = .rxCrc → s.idx = 1#5 →
    RxMove b s (enter .rxValidate { s with crcRx := sum, idx := 0#5 })

/-- What the taking of the byte `b` may do to the state in which the wire already carries it (R143). -/
inductive TxMove (b : Byte) (s : State) : State → Prop
  | header : s.st = .txHdr → s.idx ≠ 6#5 → TxMove b s { s with idx := s.idx + 1#5 }
  | headerLast : s.st = .txHdr → s.idx = 6#5 → TxMove b s (enter .txWaitReady { s with idx := 0#5 })
  | payload (c : BitVec 4) : s.st = .txPayload → b = pbufByte s s.progress.toNat →
    (s.progress + 1#32).toNat ≠ s.len34.toNat →
    c = (if s.chunkCnt.toNat + 1 = 8 then 0#4 else s.chunkCnt + 1#4) →
    TxMove b s { s with chunkCnt := c, acc := sumUpdate s.acc b, progress := s.progress + 1#32 }
  | payloadPause : s.st = .txPayload → b = pbufByte s s.progress.toNat →
    (s.chunkCnt.toNat + 1 = 8 ∨ (s.progress + 1#32).toNat = s.len34.toNat) →
    TxMove b s
      (enter .txGap { s with chunkCnt := 0#4, acc := sumUpdate s.acc b, progress := s.progress + 1#32 })
  | payloadLast : s.st = .txPayload → b = pbufByte s s.progress.toNat →
    (s.progress + 1#32).toNat = s.len34.toNat →
    TxMove b s
      (enter .txDrain { s with chunkCnt := 0#4, acc := sumUpdate s.acc b, progress := s.progress + 1#32 })
  | crc : s.st = .txCrc → s.idx ≠ 1#5 → TxMove b s { s with idx := s.idx + 1#5 }
  | crcLast : s.st = .txCrc → s.idx = 1#5 → TxMove b s (enter .txWaitAck { s with idx := 0#5 })
  | ready : s.st = .rxReady →
    TxMove b s (enter (if s.len34 = 0#34 then .rxCrc else .rxPayload) { s with idx := 0#5 })
  | finished : s.st = .rxAck → TxMove b s (completed s)
  | token : s.st = .tokSend → s.idx + 1#5 ≠ s.settings.tokenLen →
    TxMove b s { s with idx := s.idx + 1#5, progress := s.progress + 1#32 }
  | tokenLast : s.st = .tokSend → s.idx + 1#5 = s.settings.tokenLen →
    TxMove b s (enter .tokWait { s with idx := 0#5, progress := s.progress + 1#32 })

/-- What a tick, the drain and the internal step may do (R143, R150, R227, R266). -/
inductive OwnMove (s : State) : State → Prop
  | none : OwnMove s s
  | counted (v : Word) : s.st ≠ .idle → OwnMove s { s with timer := v }
  | expired (v : Word) (code : ErrCode) (wait : ErrWait) : s.st ≠ .idle → (code, wait) ∈ errorPairs →
    OwnMove s (aborted code wait { s with timer := v })
  | gapOver : s.st = .txGap →
    OwnMove s (enter (if s.progress.toNat = s.len34.toNat then .txDrain else .txPayload) s)
  | drained : s.st = .txDrain → OwnMove s (enter .txCrc { s with idx := 0#5 })
  | acknowledged (same : Bool) : s.st = .rxValidate →
    OwnMove s (enter .rxAck { s with status := { s.status with crcMatch := same } })
  | mismatched (same : Bool) : s.st = .rxValidate →
    OwnMove s (aborted .checksumMismatch .none { s with status := { s.status with crcMatch := same } })

/-! ### Host accesses -/

section
variable (s : State)

theorem HostMove.same : HostMove s s :=
  .quiet s.status.cmdRej s.status.hostConflict s.status.elemErr s.elemFmt s.elemIdx s.readData

theorem rejectCommand_hostMove : HostMove s (rejectCommand s) :=
  .quiet true s.status.hostConflict s.status.elemErr s.elemFmt s.elemIdx s.readData

theorem hostConflict_hostMove : HostMove s (hostConflict s) :=
  .quiet s.status.cmdRej true s.status.elemErr s.elemFmt s.elemIdx s.readData

theorem elemError_hostMove : HostMove s (elemError s) :=
  .quiet s.status.cmdRej s.status.hostConflict true s.elemFmt s.elemIdx s.readData

theorem returnWord_hostMove (v : Word) : HostMove s (returnWord v s) :=
  .quiet s.status.cmdRej s.status.hostConflict s.status.elemErr s.elemFmt s.elemIdx v

theorem returnWord_elemError_hostMove (v : Word) : HostMove s (returnWord v (elemError s)) :=
  .quiet s.status.cmdRej s.status.hostConflict true s.elemFmt s.elemIdx v

variable {s}

theorem acceptCommand_hostMove {start : State → State} (h : s.st = .idle → HostMove s (start s)) :
    HostMove s (acceptCommand start s) := by
  by_cases hst : s.st = .idle
  · rw [acceptCommand_of_idle _ hst]
    exact h hst
  · rw [acceptCommand_of_busy _ hst]
    exact rejectCommand_hostMove s

theorem lockedWrite_hostMove {f : State → State} (h : s.st = .idle → HostMove s (f s)) :
    HostMove s (lockedWrite f s) := by
  by_cases hst : s.st = .idle
  · rw [lockedWrite_of_idle _ hst]
    exact h hst
  · rw [lockedWrite_of_busy _ hst]
    exact hostConflict_hostMove s

theorem startSendData_hostMove (hst : s.st = .idle) : HostMove s (startSendData s) := by
  cases hlink : s.link.linkOpen with
  | false =>
    rw [startSendData_closed hlink]
    exact .startFailed _ _ hst (by decide)
  | true =>
    cases hfmt : specWidth s.settings.txFmt with
    | none =>
      rw [startSendData_unsupported hlink hfmt]
      exact .startFailed _ _ hst (by decide)
    | some w =>
      rw [startSendData_supported hlink hfmt]
      split
      case isTrue hfits => exact .sendStarted w hst hfmt hfits
      case isFalse => exact .startFailed _ _ hst (by decide)

theorem startRecvData_hostMove (hst : s.st = .idle) : HostMove s (startRecvData s) := by
  cases hlink : s.link.linkOpen with
  | false =>
    rw [startRecvData_closed hlink]
    exact .startFailed _ _ hst (by decide)
  | true =>
    rw [startRecvData_open hlink]
    exact .recvStarted hst

theorem startSendToken_hostMove (hst : s.st = .idle) : HostMove s (startSendToken s) := by
  cases hlink : s.link.linkOpen with
  | false =>
    rw [startSendToken_closed hlink]
    exact .startFailed _ _ hst (by decide)
  | true =>
    rw [startSendToken_open hlink]
    exact .tokenStarted hst

variable (s)

theorem commandWrite_hostMove (v : Word) : HostMove s (commandWrite v s) := by
  unfold commandWrite
  split
  · exact .same s
  · exact acceptCommand_hostMove startSendData_hostMove
  · exact acceptCommand_hostMove startRecvData_hostMove
  · exact acceptCommand_hostMove startSendToken_hostMove
  · exact acceptCommand_hostMove (.summed _)
  · exact rejectCommand_hostMove s

/-- CLEAR and CANCEL in one write: in IDLE the CLEAR alone counts, while busy both do (R155, R156). -/
theorem ctrlWrite_hostMove (cancel clear : Bool) : HostMove s (ctrlWrite cancel clear s) := by
  have heq : ctrlWrite cancel clear s =
      if cancel then cancelTransfer (if clear then clearRecord s else s) else if clear then clearRecord s else s := rfl
  cases hb : busy s with
  | false =>
    have hst := (busy_eq_false_iff s).mp hb
    rw [heq, cancelTransfer_idle _ (by rwa [busy_clearIf]), clearRecord_idle s hb, ite_self]
    cases clear
    · exact .same s
    · exact .cleared hst
  | true =>
    have hst := (busy_eq_true_iff s).mp hb
    rw [heq, cancelTransfer_busy _ (by rwa [busy_clearIf]), clearRecord_busy s hb]
    cases cancel <;> cases clear
    · exact .same s
    · exact .quiet _ _ _ s.elemFmt s.elemIdx s.readData
    · exact .cancelled s.status.cmdRej s.status.hostConflict s.status.elemErr hst
    · exact .cancelled _ _ _ hst

theorem crcFeedWrite_hostMove (v : Word) : HostMove s (crcFeedWrite v s) := lockedWrite_hostMove (.summed _)

theorem elemDataWrite_hostMove (v : Word) : HostMove s (elemDataWrite v s) := by
  refine lockedWrite_hostMove fun hst => ?_
  cases hat : elemAt s with
  | none =>
    rw [elemStore_of_none v hat]
    exact elemError_hostMove s
  | some e =>
    rw [elemStore_of_elemAt v hat]
    exact .wrote _ _ v hst

theorem elemDataRead_hostMove : HostMove s (elemDataRead s) := by
  obtain ⟨v, h | h⟩ := elemDataRead_frame s <;> rw [h]
  · exact returnWord_hostMove s v
  · exact returnWord_elemError_hostMove s v

theorem windowRead_hostMove (k : Nat) : HostMove s (windowRead k s) := by
  obtain ⟨v, h⟩ := windowRead_frame s k
  rw [h]
  exact returnWord_hostMove s v

theorem windowWrite_hostMove (k : Nat) (v : Word) : HostMove s (windowWrite k v s) := by
  unfold windowWrite
  split
  · exact lockedWrite_hostMove (.wrote _ _ v)
  · exact .same s

theorem hostRead_hostMove (off : Nat) : HostMove s (hostRead off s) := by
  obtain ⟨v, h | h⟩ := hostRead_frame s off <;> rw [h]
  · exact returnWord_hostMove s v
  · exact returnWord_elemError_hostMove s v

theorem regStore_hostMove (r : Reg) (v : Word) : HostMove s (regStore r v s) := by
  cases r with
  | ctrl => exact ctrlWrite_hostMove s _ _
  | cmd => exact commandWrite_hostMove s v
  | crcFeed => exact crcFeedWrite_hostMove s v
  | elemData => exact elemDataWrite_hostMove s v
  | elemFmt => exact .quiet s.status.cmdRej s.status.hostConflict s.status.elemErr _ s.elemIdx s.readData
  | elemIdx => exact .quiet s.status.cmdRej s.status.hostConflict s.status.elemErr s.elemFmt v s.readData
  | txFmt | txTag | txCount | readyDl | ackDl | syncDl | byteDl | gap | cfg | tokenLen | token0 | token1 | token2
  | token3 => exact lockedWrite_hostMove (.stored _ v)
  | status | rxFmt | rxTag | rxCount | len | lenHi | progress | timer | crcAcc | crcRx | pbufSize => exact .same s

theorem hostWrite_hostMove (off : Nat) (v : Word) : HostMove s (hostWrite off v s) := by
  unfold hostWrite
  split
  · exact windowWrite_hostMove s _ v
  · split
    · exact regStore_hostMove s _ v
    · exact .same s

end

/-- The instruction is a host access: a CMD value, a host write or a host read. -/
def isHostRow : Instr → Bool
  | .syncOut | .syncIn | .readyOut | .readyIn | .ackOut | .ackIn => false
  | .fmtUint8 _ | .fmtInt8 _ | .fmtUint16 _ | .fmtInt16 _ | .fmtUint32 _ | .fmtInt32 _ => false
  | _ => true

theorem exec_hostMove {i : Instr} {s t : State} (hi : isHostRow i = true) (h : exec i s = .next t) :
    HostMove s t := by
  suffices hk : ∃ u, exec i s = .next u ∧ HostMove s u by
    obtain ⟨u, hu, hk⟩ := hk
    rwa [Host.Outcome.next.inj (h.symm.trans hu)]
  cases i with
  | nop => exact ⟨_, rfl, .same s⟩
  | sendData => exact ⟨_, rfl, acceptCommand_hostMove startSendData_hostMove⟩
  | recvData => exact ⟨_, rfl, acceptCommand_hostMove startRecvData_hostMove⟩
  | sendToken => exact ⟨_, rfl, acceptCommand_hostMove startSendToken_hostMove⟩
  | crcInit => exact ⟨_, rfl, acceptCommand_hostMove (.summed _)⟩
  | reserved05 | reserved06 | reserved08 | reserved10 | reserved20 | reserved40 | reserved80 =>
    exact ⟨_, rfl, rejectCommand_hostMove s⟩
  | cancel | clear => exact ⟨_, rfl, ctrlWrite_hostMove s _ _⟩
  | crcFeed v => exact ⟨_, rfl, crcFeedWrite_hostMove s v⟩
  | elemRead => exact ⟨_, rfl, elemDataRead_hostMove s⟩
  | elemWrite v => exact ⟨_, rfl, elemDataWrite_hostMove s v⟩
  | winRead k => exact ⟨_, rfl, windowRead_hostMove s k⟩
  | winWrite k v => exact ⟨_, rfl, windowWrite_hostMove s k v⟩
  | regRead off => exact ⟨_, rfl, hostRead_hostMove s off⟩
  | regWrite off v => exact ⟨_, rfl, hostWrite_hostMove s off v⟩
  | syncOut | syncIn | readyOut | readyIn | ackOut | ackIn => cases hi
  | fmtUint8 | fmtInt8 | fmtUint16 | fmtInt16 | fmtUint32 | fmtInt32 => cases hi

theorem isHostRow_decodeCmd (v : Word) : isHostRow (decodeCmd v) = true := by
  simp only [decodeCmd, apply_ite isHostRow]
  simp only [isHostRow, ite_self]

theorem isHostRow_decodeHostWrite (p : Params) (off : Nat) (v : Word) : isHostRow (decodeHostWrite p off v) = true := by
  unfold decodeHostWrite
  split_ifs
  · rfl
  · rfl
  · rfl
  · exact isHostRow_decodeCmd v
  · rfl
  · rfl
  · split <;> rfl

theorem isHostRow_decodeHostRead (p : Params) (off : Nat) : isHostRow (decodeHostRead p off) = true := by
  unfold decodeHostRead
  split
  · rfl
  · split <;> rfl

/-! ### Bytes offered -/

section
variable (b : Byte) {s : State}

theorem waitReadyGot_rxMove (hst : s.st = .txWaitReady) : RxMove b s (waitReadyGot b s) := by
  by_cases hb : b = Config.readyByte
  · rw [hb, waitReadyGot_ready]
    split
    case isTrue hlen => exact .emptyReady hst hlen
    case isFalse hlen => exact .payloadReady hst hlen
  · rw [waitReadyGot_stray hb]
    split
    · exact .stray .ready (by simp [hst]) (by decide)
    · exact .discarded

theorem waitAckGot_rxMove (hst : s.st = .txWaitAck) : RxMove b s (waitAckGot b s) := by
  by_cases hb : b = Config.ackByte
  · rw [hb, waitAckGot_ack]
    exact .finished (by simp [hst])
  · rw [waitAckGot_stray hb]
    split
    · exact .stray .ack (by simp [hst]) (by decide)
    · exact .discarded

theorem tokWaitGot_rxMove (hst : s.st = .tokWait) : RxMove b s (tokWaitGot b s) := by
  by_cases hb : b = Config.readyByte
  · rw [hb, tokWaitGot_ready]
    exact .finished (by simp [hst])
  · rw [tokWaitGot_stray hb]
    split
    · exact .stray .token (by simp [hst]) (by decide)
    · exact .discarded

theorem waitSyncGot_rxMove (hst : s.st = .rxWaitSync) : RxMove b s (waitSyncGot b s) := by
  by_cases hb : b = Config.rxSync
  · rw [hb, waitSyncGot_sync]
    exact .synced hst
  · rw [waitSyncGot_stray hb]
    exact .discarded

theorem rxHdrGot_rxMove (hst : s.st = .rxHdr) : RxMove b s (rxHdrGot b s) := by
  by_cases hidx : s.idx = 5#5
  · rw [rxHdrGot_sixth b hidx]
    cases hcode : specWidth (headerRecorded { s with hdr := s.hdr.set 5 b, idx := 6#5, timer := 0#32 }).rxCode with
    | none =>
      rw [headerDone_invalid hcode]
      exact .headerInvalid _ hst
    | some w =>
      rw [headerDone_valid hcode]
      dsimp only
      split
      case isTrue hfits => exact .headerFits w _ hst ⟨_, rfl⟩ hcode hfits
      case isFalse => exact .headerLong _ _ hst
  · rw [rxHdrGot_early b hidx]
    exact .header _ hst hidx

theorem rxPayloadGot_rxMove (hst : s.st = .rxPayload) : RxMove b s (rxPayloadGot b s) := by
  have heq : rxPayloadGot b s =
      if (s.progress + 1#32).toNat = s.len34.toNat then
        { setPbufByte s.progress.toNat b s with
          st := .rxCrc, idx := 0#5, acc := sumUpdate s.acc b, progress := s.progress + 1#32, timer := 0#32 }
      else
        { setPbufByte s.progress.toNat b s with
          acc := sumUpdate s.acc b, progress := s.progress + 1#32, timer := 0#32 } := by
    rw [rxPayloadGot, setPbufByte_frame]
    simp only [feedAcc, setWidth_eq_len34_iff, enter]
  rw [heq]
  split
  case isTrue hlast => exact .payloadLast _ hst rfl hlast
  case isFalse hmore => exact .payload _ hst rfl hmore

theorem rxCrcGot_rxMove (hst : s.st = .rxCrc) : RxMove b s (rxCrcGot b s) := by
  by_cases hidx : s.idx = 1#5
  · rw [rxCrcGot_high b hidx]
    exact .crcLast _ hst hidx
  · have hlast : s.idx + 1#5 ≠ 2#5 := by bv_omega
    simp only [rxCrcGot, if_neg hlast]
    exact .crc _ hst hidx

theorem offerByte_rxMove (s : State) : RxMove b s (offerByte b s) := by
  rcases offerByte_cases s b with ⟨-, h⟩ | ⟨hst, h⟩ | ⟨hst, h⟩ | ⟨hst, h⟩ | ⟨hst, h⟩ | ⟨hst, h⟩ | ⟨hst, h⟩ |
    ⟨hst, h⟩ <;> rw [h]
  · exact .keptBack
  · exact waitReadyGot_rxMove b hst
  · exact waitAckGot_rxMove b hst
  · exact waitSyncGot_rxMove b hst
  · exact rxHdrGot_rxMove b hst
  · exact rxPayloadGot_rxMove b hst
  · exact rxCrcGot_rxMove b hst
  · exact tokWaitGot_rxMove b hst

/-! ### Bytes taken -/

theorem txHdrSent_txMove (hst : s.st = .txHdr) : TxMove b s (txHdrSent s) := by
  rw [txHdrSent_eq]
  split
  case isTrue hidx => exact .headerLast hst hidx
  case isFalse hidx => exact .header hst hidx

theorem txPayloadSent_txMove (hst : s.st = .txPayload) (hb : b = pbufByte s s.progress.toNat) :
    TxMove b s (txPayloadSent b s) := by
  simp only [txPayloadSent, feedAcc, setWidth_eq_len34_iff, chunkFull_iff, beq_iff_eq]
  split_ifs with hchunk hgap hlast
  · exact .payloadPause hst hb hchunk
  · exact .payloadLast hst hb hlast
  · exact .payload 0#4 hst hb hlast (if_pos (hchunk.resolve_right hlast)).symm
  · exact .payload _ hst hb (fun hlast => hchunk (.inr hlast)) (if_neg fun hfull => hchunk (.inl hfull)).symm

theorem txCrcSent_txMove (hst : s.st = .txCrc) : TxMove b s (txCrcSent s) := by
  rw [txCrcSent_eq]
  split
  case isTrue hidx => exact .crcLast hst hidx
  case isFalse hidx => exact .crc hst hidx

theorem tokenSent_txMove (hst : s.st = .tokSend) : TxMove b s (tokenSent s) := by
  unfold tokenSent
  dsimp only
  split
  case isTrue hidx => exact .tokenLast hst hidx
  case isFalse hidx => exact .token hst hidx

theorem readySent_txMove (hst : s.st = .rxReady) : TxMove b s (readySent s) := by
  rw [readySent_eq]
  exact .ready hst

theorem takeByte_txMove {s : State} {b : Byte} (rest : List Event) (hd : txData s = some b) :
    TxMove b (sent b rest s) (takeByte b (passed rest s)) := by
  rcases takeByte_cases (passed rest s) b _ rfl with ⟨hne, -⟩ | ⟨hst, -, h⟩ | ⟨hst, hb, h⟩ | ⟨hst, -, h⟩ |
    ⟨hst, -, h⟩ | ⟨hst, -, h⟩ | ⟨hst, -, h⟩
  · exact absurd hd hne
  all_goals rw [h]
  · exact txHdrSent_txMove b hst
  · exact txPayloadSent_txMove b hst hb
  · exact txCrcSent_txMove b hst
  · exact readySent_txMove b hst
  · exact .finished hst
  · exact tokenSent_txMove b hst

end

/-! ### EDLINK's own events -/

section
variable (s : State)

theorem errorPair_of_waitBound {dl : Word} {code : ErrCode} {wait : ErrWait}
    (h : waitBound s = some (dl, code, wait)) : (code, wait) ∈ errorPairs := by
  cases hst : s.st <;> simp only [waitBound, hst, Option.some.injEq, Prod.mk.injEq, reduceCtorEq] at h <;>
    obtain ⟨-, rfl, rfl⟩ := h <;> decide

theorem tickStep_ownMove : OwnMove s (tickStep s) := by
  by_cases hidle : s.st = .idle
  · rw [tickStep_idle s hidle]
    exact .none
  by_cases hgap : s.st = .txGap
  · rw [tickStep_gap s hgap]
    by_cases hover : s.settings.gap.toNat ≤ (satInc s.timer).toNat
    · rw [txGapTick_over (s := { s with timer := satInc s.timer }) hover]
      exact .gapOver hgap
    · rw [txGapTick_running (s := { s with timer := satInc s.timer }) (Nat.lt_of_not_le hover)]
      exact .counted _ hidle
  cases hwait : waitBound s with
  | none =>
    rw [tickStep_other s hidle hgap hwait]
    exact .counted _ hidle
  | some bound =>
    obtain ⟨dl, code, wait⟩ := bound
    rw [tickStep_wait s hwait]
    rcases deadline_cases { s with timer := satInc s.timer } dl code wait with ⟨-, -, h⟩ | ⟨-, h⟩ <;> rw [h]
    · exact .expired _ code wait hidle (errorPair_of_waitBound s hwait)
    · exact .counted _ hidle

theorem drainStep_ownMove : OwnMove s (drainStep s) := by
  by_cases hst : s.st = .txDrain
  · rw [drainStep_txDrain hst]
    exact .drained hst
  · rw [drainStep_of_ne hst]
    exact .none

theorem internalStep_ownMove : OwnMove s (internalStep s) := by
  by_cases hst : s.st = .rxValidate
  · rw [internalStep_rxValidate hst]
    dsimp only
    split
    · exact .acknowledged _ hst
    · exact .mismatched _ hst
  · rw [internalStep_of_ne hst]
    exact .none

end

/-! ### The step -/

/-- Everything a step can change, where it has a next state, by the kind of its event. -/
theorem step_moves {s t : State} (h : step s = .next t) :
    (∃ rest, HostMove (passed rest s) t) ∨
    (∃ b more rest, s.script = .rx :: rest ∧ s.link.held = b :: more ∧ RxMove b (handedOver more rest s) t) ∨
    (∃ b rest, s.script = .tx :: rest ∧ txData s = some b ∧ TxMove b (sent b rest s) t) ∨
    (∃ rest, OwnMove (passed rest s) t) ∨
    (∃ rest, s.script = .reset :: rest ∧ t = resetStep (passed rest s)) ∨
    (∃ rest, s.script = .powerOn :: rest ∧ t = powerOnStep (passed rest s)) ∨
    (∃ held isOpen rest, t = { passed rest s with link := { s.link with held := held, linkOpen := isOpen } }) := by
  rcases step_cases h with ⟨-, rfl⟩ | ⟨off, v, rest, -, hexec⟩ | ⟨off, rest, -, hexec⟩ | ⟨rest, -, -, rfl⟩ |
    ⟨b, more, rest, hs, hheld, rfl⟩ | ⟨rest, -, -, rfl⟩ | ⟨b, rest, hs, hd, rfl⟩ | ⟨rest, -, rfl⟩ |
    ⟨rest, -, rfl⟩ | ⟨rest, -, rfl⟩ | ⟨rest, hs, rfl⟩ | ⟨rest, hs, rfl⟩ | ⟨b, rest, -, rfl⟩ | ⟨isOpen, rest, -, rfl⟩
  case inl => exact .inr (.inr (.inr (.inl ⟨s.script, internalStep_ownMove s⟩)))
  · exact .inl ⟨rest, exec_hostMove (isHostRow_decodeHostWrite _ off v) hexec⟩
  · exact .inl ⟨rest, exec_hostMove (isHostRow_decodeHostRead _ off) hexec⟩
  · exact .inr (.inr (.inr (.inl ⟨rest, .none⟩)))
  · exact .inr (.inl ⟨b, more, rest, hs, hheld, offerByte_rxMove b _⟩)
  · exact .inr (.inr (.inr (.inl ⟨rest, .none⟩)))
  · exact .inr (.inr (.inl ⟨b, rest, hs, hd, takeByte_txMove rest hd⟩))
  · exact .inr (.inr (.inr (.inl ⟨rest, drainStep_ownMove _⟩)))
  · exact .inr (.inr (.inr (.inl ⟨rest, tickStep_ownMove _⟩)))
  · exact .inr (.inr (.inr (.inl ⟨rest, internalStep_ownMove _⟩)))
  · exact .inr (.inr (.inr (.inr (.inl ⟨rest, hs, rfl⟩))))
  · exact .inr (.inr (.inr (.inr (.inr (.inl ⟨rest, hs, rfl⟩)))))
  · exact .inr (.inr (.inr (.inr (.inr (.inr ⟨_, s.link.linkOpen, rest, rfl⟩)))))
  · exact .inr (.inr (.inr (.inr (.inr (.inr ⟨s.link.held, isOpen, rest, rfl⟩)))))

end Sys2Proof.Machine
end

section
/-!
What no step, or no step of a running transfer, changes (spec/20_memory.md R83; spec/40_engine.md R153; spec/10_state.md
R34): the parameters, the locked registers, PBUF and the wire, read off the lists of moves.
-/

namespace Sys2Proof.Machine

section
variable {s t : State} {b : Byte}

/-- A host access leaves the parameters, the draws and the link, and writes PBUF by `MemWrite` alone. -/
theorem HostMove.frame (h : HostMove s t) :
    t.params = s.params ∧ t.draws = s.draws ∧ t.link = s.link ∧
      (t.pbuf = s.pbuf ∨ ∃ off n v, t.pbuf = (memWrite off v n s).pbuf) := by
  cases h with
  | wrote off n v =>
    rw [memWrite_frame]
    exact ⟨rfl, rfl, rfl, .inr ⟨off, n, v, rfl⟩⟩
  | _ => exact ⟨rfl, rfl, rfl, .inl rfl⟩

/-- While a transfer runs a host access changes no locked register and no byte of PBUF (R153). -/
theorem HostMove.locked (h : HostMove s t) (hbusy : s.st ≠ .idle) : t.settings = s.settings ∧ t.pbuf = s.pbuf := by
  cases h with
  | quiet | cancelled => exact ⟨rfl, rfl⟩
  | cleared hidle | recvStarted hidle | tokenStarted hidle => exact absurd hidle hbusy
  | summed _ hidle => exact absurd hidle hbusy
  | stored _ _ hidle | startFailed _ _ hidle | sendStarted _ hidle => exact absurd hidle hbusy
  | wrote _ _ _ hidle => exact absurd hidle hbusy

theorem setPbufByte_settings (a : Nat) : (setPbufByte a b s).settings = s.settings := by rw [setPbufByte_frame]

theorem setPbufByte_draws (a : Nat) : (setPbufByte a b s).draws = s.draws := by rw [setPbufByte_frame]

theorem setPbufByte_link (a : Nat) : (setPbufByte a b s).link = s.link := by rw [setPbufByte_frame]

/-- A byte offered leaves the parameters, the locked registers, the draws and the wire, and writes PBUF at PROGRESS
alone, in RX_PAYLOAD. -/
theorem RxMove.frame (h : RxMove b s t) :
    t.params = s.params ∧ t.settings = s.settings ∧ t.draws = s.draws ∧ t.link.wire = s.link.wire ∧
      (t.pbuf = s.pbuf ∨ (s.st = .rxPayload ∧ t.pbuf = (setPbufByte s.progress.toNat b s).pbuf)) := by
  cases h with
  | headerFits w u hst hu =>
    obtain ⟨h, rfl⟩ := hu
    exact ⟨rfl, rfl, rfl, rfl, .inl rfl⟩
  | payload u hst hu | payloadLast u hst hu =>
    subst hu
    exact ⟨setPbufByte_params _ _ _, setPbufByte_settings _, setPbufByte_draws _,
      congrArg Link.wire (setPbufByte_link _), .inr ⟨hst, rfl⟩⟩
  | _ => exact ⟨rfl, rfl, rfl, rfl, .inl rfl⟩

theorem TxMove.frame (h : TxMove b s t) :
    t.params = s.params ∧ t.settings = s.settings ∧ t.draws = s.draws ∧ t.link = s.link ∧ t.pbuf = s.pbuf := by
  cases h <;> exact ⟨rfl, rfl, rfl, rfl, rfl⟩

theorem OwnMove.frame (h : OwnMove s t) :
    t.params = s.params ∧ t.settings = s.settings ∧ t.draws = s.draws ∧ t.link = s.link ∧ t.pbuf = s.pbuf := by
  cases h <;> exact ⟨rfl, rfl, rfl, rfl, rfl⟩

theorem step_params (h : step s = .next t) : t.params = s.params := by
  rcases step_moves h with ⟨rest, hm⟩ | ⟨b, more, rest, -, -, hm⟩ | ⟨b, rest, -, -, hm⟩ | ⟨rest, hm⟩ |
    ⟨rest, -, rfl⟩ | ⟨rest, -, rfl⟩ | ⟨held, isOpen, rest, rfl⟩
  · exact hm.frame.1
  · exact hm.frame.1
  · exact hm.frame.1
  · exact hm.frame.1
  all_goals rfl

/-- PBUF's bytes are those of its record and the draw (R70, R71). -/
theorem pbufByte_congr (hpbuf : t.pbuf = s.pbuf) (hdraws : t.draws = s.draws) (a : Nat) :
    pbufByte t a = pbufByte s a := by rw [pbufByte, pbufByte, hpbuf, hdraws]

/-- A byte stored where the buffer ends changes nothing, and elsewhere the byte at its offset alone (R70). -/
theorem pbufByte_stored {a : Nat} (hpbuf : t.pbuf = (setPbufByte a b s).pbuf) (hdraws : t.draws = s.draws) (c : Nat) :
    pbufByte t c = pbufByte s c ∨ (c = a ∧ pbufByte t c = b) := by
  have hset : pbufByte t c = pbufByte (setPbufByte a b s) c :=
    pbufByte_congr hpbuf (hdraws.trans (setPbufByte_draws a).symm) c
  by_cases hin : a < s.params.pbufBytes
  · rw [hset, pbufByte_setPbufByte a c b s hin]
    by_cases hc : c = a
    · exact .inr ⟨hc, if_pos hc⟩
    · exact .inl (if_neg hc)
  · rw [hset, setPbufByte, if_neg hin]
    exact .inl rfl

end

/-- Settles O50: no move of a running transfer writes a locked register. -/
theorem settingsLockedWhileBusy : Obligations.SettingsLockedWhileBusy := by
  unfold Obligations.SettingsLockedWhileBusy
  intro s t hbusy hevent hstep
  rcases step_moves hstep with ⟨rest, hm⟩ | ⟨b, more, rest, -, -, hm⟩ | ⟨b, rest, -, -, hm⟩ | ⟨rest, hm⟩ |
    ⟨rest, hs, -⟩ | ⟨rest, hs, -⟩ | ⟨held, isOpen, rest, rfl⟩
  · exact (hm.locked hbusy).1
  · obtain ⟨-, hsettings, -⟩ := hm.frame
    exact hsettings
  · obtain ⟨-, hsettings, -⟩ := hm.frame
    exact hsettings
  · obtain ⟨-, hsettings, -⟩ := hm.frame
    exact hsettings
  · exact absurd rfl (hevent _ _ hs).1
  · exact absurd rfl (hevent _ _ hs).2
  · rfl

/-- Settles O51: of the moves of a running transfer, a byte offered in RX_PAYLOAD alone writes PBUF. -/
theorem pbufWrittenByReceiverAlone : Obligations.PbufWrittenByReceiverAlone := by
  unfold Obligations.PbufWrittenByReceiverAlone
  intro s t hbusy hpower hstep a
  rcases step_moves hstep with ⟨rest, hm⟩ | ⟨b, more, rest, hs, hheld, hm⟩ | ⟨b, rest, -, -, hm⟩ | ⟨rest, hm⟩ |
    ⟨rest, -, rfl⟩ | ⟨rest, hs, -⟩ | ⟨held, isOpen, rest, rfl⟩
  · obtain ⟨-, hdraws, -, -⟩ := hm.frame
    exact .inl (pbufByte_congr (s := passed rest s) (hm.locked hbusy).2 hdraws a)
  · obtain ⟨-, -, hdraws, -, hpbuf | ⟨hst, hpbuf⟩⟩ := hm.frame
    · exact .inl (pbufByte_congr (s := handedOver more rest s) hpbuf hdraws a)
    · obtain hsame | ⟨ha, hb⟩ := pbufByte_stored hpbuf hdraws a
      · exact .inl hsame
      · exact .inr ⟨hst, ha, b, more, rest, hs, hheld, hb⟩
  · obtain ⟨-, -, hdraws, -, hpbuf⟩ := hm.frame
    exact .inl (pbufByte_congr (s := sent b rest s) hpbuf hdraws a)
  · obtain ⟨-, -, hdraws, -, hpbuf⟩ := hm.frame
    exact .inl (pbufByte_congr (s := passed rest s) hpbuf hdraws a)
  · exact .inl rfl
  · exact absurd hs (hpower rest)
  · exact .inl rfl

/-- EDLINK offers a byte only where tx_valid is 1 (R36). -/
theorem txValid_of_txData {s : State} {b : Byte} (hd : txData s = some b) : txValid s = true := by
  by_contra hvalid
  rw [txData_of_not_valid (by simpa using hvalid)] at hd
  cases hd

/-- Settles O53: only a byte taken is appended to the wire, and it is the one offered. -/
theorem wireCarriesOfferedBytes : Obligations.WireCarriesOfferedBytes := by
  unfold Obligations.WireCarriesOfferedBytes
  intro s t hstep
  rcases step_moves hstep with ⟨rest, hm⟩ | ⟨b, more, rest, -, -, hm⟩ | ⟨b, rest, hs, hd, hm⟩ | ⟨rest, hm⟩ |
    ⟨rest, -, rfl⟩ | ⟨rest, -, rfl⟩ | ⟨held, isOpen, rest, rfl⟩
  · obtain ⟨-, -, hlink, -⟩ := hm.frame
    exact .inl (congrArg Link.wire hlink)
  · obtain ⟨-, -, -, hwire, -⟩ := hm.frame
    exact .inl hwire
  · obtain ⟨-, -, -, hlink, -⟩ := hm.frame
    exact .inr ⟨b, rest, hs, txValid_of_txData hd, hd, congrArg Link.wire hlink⟩
  · obtain ⟨-, -, -, hlink, -⟩ := hm.frame
    exact .inl (congrArg Link.wire hlink)
  all_goals exact .inl rfl

/-! ### PBUF's canonical form -/

theorem MemoryInv.of_same {s t : State} (h : MemoryInv s) (hparams : t.params = s.params) (hpbuf : t.pbuf = s.pbuf) :
    MemoryInv t := by rwa [MemoryInv, hparams, hpbuf]

/-- Settles O55: PBUF is written by `MemWrite` and by the receiver's store, which keep its form, and emptied by
power-on. -/
theorem stepKeepsMemory : Obligations.StepKeepsMemory := by
  unfold Obligations.StepKeepsMemory
  intro s t h hstep
  rcases step_moves hstep with ⟨rest, hm⟩ | ⟨b, more, rest, -, -, hm⟩ | ⟨b, rest, -, -, hm⟩ | ⟨rest, hm⟩ |
    ⟨rest, -, rfl⟩ | ⟨rest, -, rfl⟩ | ⟨held, isOpen, rest, rfl⟩
  · obtain ⟨hparams, -, -, hpbuf | ⟨off, n, v, hpbuf⟩⟩ := hm.frame
    · exact h.of_same (s := s) hparams hpbuf
    · exact (memWrite_memoryInv n off v (passed rest s) h).of_same (by rw [hparams, memWrite_params]) hpbuf
  · obtain ⟨hparams, -, -, -, hpbuf | ⟨-, hpbuf⟩⟩ := hm.frame
    · exact h.of_same (s := s) hparams hpbuf
    · exact (setPbufByte_memoryInv _ b (handedOver more rest s) h).of_same (by rw [hparams, setPbufByte_params]) hpbuf
  · obtain ⟨hparams, -, -, -, hpbuf⟩ := hm.frame
    exact h.of_same (s := s) hparams hpbuf
  · obtain ⟨hparams, -, -, -, hpbuf⟩ := hm.frame
    exact h.of_same (s := s) hparams hpbuf
  · exact h
  · exact reset_memory s.params
  · exact h

end Sys2Proof.Machine
end

section
/-!
STATUS as a legal record (spec/10_state.md R42; spec/60_exceptions.md R302) and the registers of legal values (R47,
R56), kept by every step.
-/

namespace Sys2Proof.Machine

/-! ### STATUS -/

section
variable {s t : State} {b : Byte}

/-- STATUS without a result: neither DONE nor ERROR, and no record. -/
def NoResult (c : Status) : Prop := c.done = false ∧ c.error = false ∧ c.errCode = .none ∧ c.errWait = .none

theorem StatusInv.of_noResult (h : NoResult s.status) : StatusInv s := by
  obtain ⟨hdone, herror, hcode, hwait⟩ := h
  simp [StatusInv, hdone, herror, hcode, hwait]

/-- While a transfer runs STATUS holds no result (R145). -/
theorem StatusInv.noResult (h : StatusInv s) (hst : s.st ≠ .idle) : NoResult s.status := by
  obtain ⟨-, -, hnone, hbusy⟩ := h
  obtain ⟨hdone, herror⟩ := hbusy ((busy_eq_true_iff s).mpr hst)
  obtain ⟨hcode, hwait⟩ := hnone herror
  exact ⟨hdone, herror, hcode, hwait⟩

/-- An abort's record is legal where its pair is one of R302's, whatever STATUS was before (R154). -/
theorem statusInv_aborted {code : ErrCode} {wait : ErrWait} (h : (code, wait) ∈ errorPairs) :
    StatusInv (aborted code wait s) := by
  simp [StatusInv, aborted, abortedStatus, busy, h]

theorem statusInv_failedStart {code : ErrCode} {len : Len34} (h : (code, ErrWait.none) ∈ errorPairs) :
    StatusInv (failedStart code len s) := by
  simp [StatusInv, failedStart, abortedStatus, busy, h]

/-- A completion sets DONE where no result stood (R152). -/
theorem statusInv_completed (h : StatusInv s) (hst : s.st ≠ .idle) : StatusInv (completed s) := by
  obtain ⟨-, herror, hcode, hwait⟩ := h.noResult hst
  simp [StatusInv, completed, busy, herror, hcode, hwait]

theorem HostMove.statusInv (h : HostMove s t) (hs : StatusInv s) : StatusInv t := by
  cases h with
  | quiet | summed | stored => exact hs
  | wrote off n v =>
    rw [memWrite_frame]
    exact hs
  | cleared | sendStarted | recvStarted | tokenStarted => exact .of_noResult ⟨rfl, rfl, rfl, rfl⟩
  | cancelled => exact statusInv_aborted (by decide)
  | startFailed code len _ hpair => exact statusInv_failedStart hpair

theorem RxMove.statusInv (h : RxMove b s t) (hs : StatusInv s) : StatusInv t := by
  have running : s.st ≠ .idle → NoResult s.status := hs.noResult
  cases h with
  | keptBack | discarded => exact hs
  | stray wait _ hpair => exact statusInv_aborted hpair
  | finished hst => exact statusInv_completed hs hst
  | headerInvalid | headerLong => exact statusInv_aborted (by decide)
  | emptyReady hst | payloadReady hst | synced hst => exact .of_noResult (running (by simp [hst]))
  | header _ hst | crc _ hst | crcLast _ hst => exact .of_noResult (running (by simp [hst]))
  | headerFits w u hst hu =>
    obtain ⟨_, rfl⟩ := hu
    exact .of_noResult (running (by simp [hst]))
  | payload u hst hu | payloadLast u hst hu =>
    rw [setPbufByte_frame] at hu
    subst hu
    exact .of_noResult (running (by simp [hst]))

theorem TxMove.statusInv (h : TxMove b s t) (hs : StatusInv s) : StatusInv t := by
  have running : s.st ≠ .idle → NoResult s.status := hs.noResult
  cases h with
  | finished hst => exact statusInv_completed hs (by simp [hst])
  | header hst | headerLast hst | crc hst | crcLast hst => exact .of_noResult (running (by simp [hst]))
  | payload _ hst | payloadPause hst | payloadLast hst => exact .of_noResult (running (by simp [hst]))
  | ready hst | token hst | tokenLast hst => exact .of_noResult (running (by simp [hst]))

theorem OwnMove.statusInv (h : OwnMove s t) (hs : StatusInv s) : StatusInv t := by
  cases h with
  | none | counted => exact hs
  | expired _ _ _ _ hpair => exact statusInv_aborted hpair
  | mismatched => exact statusInv_aborted (by decide)
  | gapOver hst | drained hst | acknowledged _ hst => exact .of_noResult (hs.noResult (by simp [hst]))

theorem step_statusInv (h : step s = .next t) (hs : StatusInv s) : StatusInv t := by
  rcases step_moves h with ⟨rest, hm⟩ | ⟨b, more, rest, -, -, hm⟩ | ⟨b, rest, -, -, hm⟩ | ⟨rest, hm⟩ |
    ⟨rest, -, rfl⟩ | ⟨rest, -, rfl⟩ | ⟨held, isOpen, rest, rfl⟩
  · exact hm.statusInv hs
  · exact hm.statusInv hs
  · exact hm.statusInv hs
  · exact hm.statusInv hs
  · exact .of_noResult ⟨rfl, rfl, rfl, rfl⟩
  · exact .of_noResult ⟨rfl, rfl, rfl, rfl⟩
  · exact hs

/-! ### The registers of legal values -/

/-- TOKEN_LEN after a write to any register: legal where it was (R56). -/
theorem storeSetting_tokenLen (r : Reg) (v : Word) {c : Settings} (h : c.tokenLen.toNat ≤ 16) :
    (storeSetting r v c).tokenLen.toNat ≤ 16 := by
  cases r with
  | tokenLen =>
    have hle : (legalTokenLen v).toNat ≤ 16 := by
      rw [legalTokenLen_eq, BitVec.toNat_ofNat]
      omega
    exact hle
  | _ => exact h

theorem HostMove.registerInv (h : HostMove s t) (hs : RegisterInv s) : RegisterInv t := by
  cases h with
  | stored r v => exact ⟨storeSetting_tokenLen r v hs.1, hs.2⟩
  | wrote off n v =>
    rw [memWrite_frame]
    exact hs
  | _ => exact hs

/-- The header's recorded code is its recorded byte, masked, whatever the header (R47, R175). -/
theorem headerRecorded_rxCode : (headerRecorded s).rxCode = (headerRecorded s).rxRaw &&& 0xCF#8 := rfl

theorem RxMove.registerInv (h : RxMove b s t) (hs : RegisterInv s) : RegisterInv t := by
  cases h with
  | headerInvalid | headerLong => exact ⟨hs.1, headerRecorded_rxCode⟩
  | headerFits w u hst hu =>
    obtain ⟨_, rfl⟩ := hu
    exact ⟨hs.1, headerRecorded_rxCode⟩
  | payload u hst hu | payloadLast u hst hu =>
    rw [setPbufByte_frame] at hu
    subst hu
    exact hs
  | _ => exact hs

theorem registerInv_resetStep : RegisterInv (resetStep s) :=
  ⟨Nat.zero_le _, show (0#8 : Byte) = 0#8 &&& 0xCF#8 by decide⟩

theorem step_registerInv (h : step s = .next t) (hs : RegisterInv s) : RegisterInv t := by
  rcases step_moves h with ⟨rest, hm⟩ | ⟨b, more, rest, -, -, hm⟩ | ⟨b, rest, -, -, hm⟩ | ⟨rest, hm⟩ |
    ⟨rest, -, rfl⟩ | ⟨rest, -, rfl⟩ | ⟨held, isOpen, rest, rfl⟩
  · exact hm.registerInv hs
  · exact hm.registerInv hs
  · cases hm <;> exact hs
  · cases hm <;> exact hs
  · exact registerInv_resetStep
  · exact registerInv_resetStep (s := passed rest s)
  · exact hs

end

/-- Settles O56: each half is kept on its own premise. -/
theorem stepKeepsRecords : Obligations.StepKeepsRecords := by
  unfold Obligations.StepKeepsRecords
  exact fun s t h => ⟨step_statusInv h, step_registerInv h⟩

end Sys2Proof.Machine
end

section
/-!
The sequencer's legal position (spec/10_state.md R31, R33, R50), kept by every step under legal parameters, and with it
the checksum of the bytes moved so far (spec/42_checksum.md R206, R209, R269).
-/

namespace Sys2Proof.Machine

section
variable {s t : State} {b : Byte}

/-! ### The position -/

theorem positionInv_idle_iff (hst : s.st = .idle) : PositionInv s ↔ s.idx = 0#5 ∧ s.chunkCnt = 0#4 := by
  simp only [PositionInv, hst]

theorem positionInv_aborted (code : ErrCode) (wait : ErrWait) : PositionInv (aborted code wait s) :=
  (positionInv_idle_iff rfl).mpr ⟨rfl, rfl⟩

theorem positionInv_completed : PositionInv (completed s) := (positionInv_idle_iff rfl).mpr ⟨rfl, rfl⟩

theorem positionInv_resetStep : PositionInv (resetStep s) := (positionInv_idle_iff rfl).mpr ⟨rfl, rfl⟩

/-- A length that fits in the buffer is exact in the 34 bits of LEN34 (R177). -/
theorem len34_toNat_of_fits (hp : s.params.wf) {n : Nat} (h : n ≤ s.params.pbufBytes) :
    (BitVec.ofNat 34 n).toNat = n := by
  obtain ⟨-, -, hsize, -⟩ := hp
  rw [BitVec.toNat_ofNat, Nat.mod_eq_of_lt (by omega)]

theorem HostMove.positionInv (h : HostMove s t) (hp : s.params.wf) (hs : PositionInv s) : PositionInv t := by
  cases h with
  | quiet | cleared | summed => exact hs
  | cancelled => exact positionInv_aborted _ _
  | stored r v hst => exact (positionInv_idle_iff (s := writeSetting r v s) hst).mpr ((positionInv_idle_iff hst).mp hs)
  | wrote off n v hst =>
    rw [memWrite_frame]
    exact (positionInv_idle_iff hst).mpr ((positionInv_idle_iff hst).mp hs)
  | startFailed code len => exact (positionInv_idle_iff rfl).mpr ⟨rfl, rfl⟩
  | sendStarted w _ hfmt hfits =>
    have hlen := len34_toNat_of_fits hp hfits
    exact And.intro (Nat.zero_le 6) ⟨rfl, rfl, w, hfmt, hlen, hlen.le.trans hfits⟩
  | recvStarted => exact And.intro rfl ⟨rfl, rfl, rfl⟩
  | tokenStarted =>
    have htok := s.settings.tokenLen.isLt
    have hlen : (BitVec.ofNat 34 s.settings.tokenLen.toNat).toNat = s.settings.tokenLen.toNat := by
      rw [BitVec.toNat_ofNat, Nat.mod_eq_of_lt (by omega)]
    split
    case isTrue hzero =>
      have hempty : (0#32).toNat = (BitVec.ofNat 34 s.settings.tokenLen.toNat).toNat := by rw [hzero]; rfl
      exact And.intro rfl ⟨rfl, hempty, hlen⟩
    case isFalse hne =>
      have hpos : (0#5).toNat < s.settings.tokenLen.toNat := Nat.pos_of_ne_zero fun h => hne (BitVec.eq_of_toNat_eq h)
      exact And.intro hpos ⟨rfl, rfl, hlen⟩

theorem RxMove.positionInv (h : RxMove b s t) (hp : s.params.wf) (hs : PositionInv s) : PositionInv t := by
  have ⟨_, _, hsize, _⟩ := hp
  cases h with
  | keptBack | discarded => exact hs
  | stray | headerInvalid | headerLong => exact positionInv_aborted _ _
  | finished => exact positionInv_completed
  | emptyReady hst hlen =>
    simp only [PositionInv, hst] at hs
    obtain ⟨hidx, hchunk, hprog, htx⟩ := hs
    exact And.intro hidx ⟨hchunk, show s.progress.toNat = s.len34.toNat by rw [hprog, hlen]; rfl, htx⟩
  | payloadReady hst hlen =>
    simp only [PositionInv, hst] at hs
    obtain ⟨hidx, hchunk, hprog, htx⟩ := hs
    refine And.intro hidx ⟨?_, ?_, htx⟩
    · show (0#4).toNat = s.progress.toNat % 8
      rw [hprog]
      rfl
    · show s.progress.toNat < s.len34.toNat
      rw [hprog]
      exact Nat.pos_of_ne_zero fun h => hlen (BitVec.eq_of_toNat_eq h)
  | synced hst =>
    simp only [PositionInv, hst] at hs
    obtain ⟨-, hrest⟩ := hs
    exact And.intro (Nat.zero_le 5) hrest
  | header h hst hidx =>
    simp only [PositionInv, hst] at hs ⊢
    obtain ⟨hle, hrest⟩ := hs
    exact ⟨by bv_omega, hrest⟩
  | headerFits w u hst hu hcode hfits =>
    obtain ⟨_, rfl⟩ := hu
    simp only [PositionInv, hst] at hs
    obtain ⟨-, hchunk, hprog, -⟩ := hs
    have hlen := len34_toNat_of_fits hp hfits
    exact And.intro rfl ⟨hchunk, hprog, w, hcode, hlen, hlen.le.trans hfits⟩
  | payload u hst hu hmore =>
    rw [setPbufByte_frame] at hu
    subst hu
    simp only [PositionInv, hst] at hs ⊢
    obtain ⟨hidx, hchunk, hlt, hrx⟩ := hs
    exact ⟨hidx, hchunk, by bv_omega, hrx⟩
  | payloadLast u hst hu hlast =>
    rw [setPbufByte_frame] at hu
    subst hu
    simp only [PositionInv, hst] at hs
    obtain ⟨-, hchunk, -, hrx⟩ := hs
    exact And.intro (Nat.zero_le 1) ⟨hchunk, hlast, hrx⟩
  | crc sum hst hidx =>
    simp only [PositionInv, hst] at hs ⊢
    obtain ⟨hle, hrest⟩ := hs
    exact ⟨by bv_omega, hrest⟩
  | crcLast sum hst =>
    simp only [PositionInv, hst] at hs
    obtain ⟨-, hrest⟩ := hs
    exact And.intro rfl hrest

theorem TxMove.positionInv (h : TxMove b s t) (hp : s.params.wf) (hs : PositionInv s) : PositionInv t := by
  obtain ⟨-, -, hsize, -⟩ := hp
  cases h with
  | header hst hidx =>
    simp only [PositionInv, hst] at hs ⊢
    obtain ⟨hle, hrest⟩ := hs
    exact ⟨by bv_omega, hrest⟩
  | headerLast hst =>
    simp only [PositionInv, hst] at hs
    obtain ⟨-, hrest⟩ := hs
    exact And.intro rfl hrest
  | payload c hst _ hmore hc =>
    simp only [PositionInv, hst] at hs ⊢
    obtain ⟨hidx, hchunk, hlt, w, hfmt, hlen, hfits⟩ := hs
    refine ⟨hidx, ?_, by bv_omega, w, hfmt, hlen, hfits⟩
    rw [hc]
    split <;> bv_omega
  | payloadPause hst _ hpause =>
    simp only [PositionInv, hst] at hs
    obtain ⟨hidx, hchunk, hlt, w, hfmt, hlen, hfits⟩ := hs
    have hnext : (s.progress + 1#32).toNat = s.progress.toNat + 1 := by bv_omega
    have hpos : 0 < (s.progress + 1#32).toNat := by omega
    have hle : (s.progress + 1#32).toNat ≤ s.len34.toNat := by omega
    have hchunks : (s.progress + 1#32).toNat % 8 = 0 ∨ (s.progress + 1#32).toNat = s.len34.toNat := by omega
    exact And.intro hidx ⟨rfl, hpos, hle, hchunks, w, hfmt, hlen, hfits⟩
  | payloadLast hst _ hlast =>
    simp only [PositionInv, hst] at hs
    obtain ⟨hidx, -, -, htx⟩ := hs
    exact And.intro hidx ⟨rfl, hlast, htx⟩
  | crc hst hidx =>
    simp only [PositionInv, hst] at hs ⊢
    obtain ⟨hle, hrest⟩ := hs
    exact ⟨by bv_omega, hrest⟩
  | crcLast hst =>
    simp only [PositionInv, hst] at hs
    obtain ⟨-, hrest⟩ := hs
    exact And.intro rfl hrest
  | ready hst =>
    simp only [PositionInv, hst] at hs
    obtain ⟨-, hchunk, hprog, hrx⟩ := hs
    split
    case isTrue hlen =>
      exact And.intro (Nat.zero_le 1)
        ⟨hchunk, show s.progress.toNat = s.len34.toNat by rw [hprog, hlen]; rfl, hrx⟩
    case isFalse hlen =>
      refine And.intro rfl ⟨hchunk, ?_, hrx⟩
      show s.progress.toNat < s.len34.toNat
      rw [hprog]
      exact Nat.pos_of_ne_zero fun h => hlen (BitVec.eq_of_toNat_eq h)
  | finished => exact positionInv_completed
  | token hst hmore =>
    simp only [PositionInv, hst] at hs ⊢
    obtain ⟨hlt, hchunk, hprog, hlen⟩ := hs
    exact ⟨by bv_omega, hchunk, by bv_omega, hlen⟩
  | tokenLast hst hlast =>
    simp only [PositionInv, hst] at hs
    obtain ⟨hlt, hchunk, hprog, hlen⟩ := hs
    refine And.intro rfl ⟨hchunk, ?_, hlen⟩
    show (s.progress + 1#32).toNat = s.len34.toNat
    rw [hlen, ← hlast]
    bv_omega

theorem OwnMove.positionInv (h : OwnMove s t) (hs : PositionInv s) : PositionInv t := by
  cases h with
  | none | counted => exact hs
  | expired | mismatched => exact positionInv_aborted _ _
  | gapOver hst =>
    simp only [PositionInv, hst] at hs
    obtain ⟨hidx, hchunk, -, hle, hchunks, htx⟩ := hs
    split
    case isTrue hend => exact And.intro hidx ⟨hchunk, hend, htx⟩
    case isFalse hmore =>
      have hmod : s.chunkCnt.toNat = s.progress.toNat % 8 := by rw [hchunk, hchunks.resolve_right hmore]; rfl
      exact And.intro hidx ⟨hmod, Nat.lt_of_le_of_ne hle hmore, htx⟩
  | drained hst =>
    simp only [PositionInv, hst] at hs
    obtain ⟨-, hrest⟩ := hs
    exact And.intro (Nat.zero_le 1) hrest
  | acknowledged same hst =>
    simp only [PositionInv, hst] at hs
    exact hs

theorem step_positionInv (h : step s = .next t) (hp : s.params.wf) (hs : PositionInv s) : PositionInv t := by
  rcases step_moves h with ⟨rest, hm⟩ | ⟨b, more, rest, -, -, hm⟩ | ⟨b, rest, -, -, hm⟩ | ⟨rest, hm⟩ |
    ⟨rest, -, rfl⟩ | ⟨rest, -, rfl⟩ | ⟨held, isOpen, rest, rfl⟩
  · exact hm.positionInv hp hs
  · exact hm.positionInv hp hs
  · exact hm.positionInv hp hs
  · exact hm.positionInv hs
  · exact positionInv_resetStep
  · exact positionInv_resetStep (s := passed rest s)
  · exact hs

end

/-- Settles O57: by the moves, and the parameters by their frame. -/
theorem stepKeepsPosition : Obligations.StepKeepsPosition := by
  unfold Obligations.StepKeepsPosition
  exact fun s t hp hs h => ⟨step_positionInv h hp hs, step_params h⟩

/-! ### The checksum -/

/-- The states in which a frame is sent or received (R31). -/
def inFrame : St → Bool
  | .idle | .tokSend | .tokWait => false
  | .txHdr | .txWaitReady | .txPayload | .txGap | .txDrain | .txCrc | .txWaitAck | .rxWaitSync | .rxHdr | .rxReady
  | .rxPayload | .rxCrc | .rxValidate | .rxAck => true

section
variable {s t : State} {b : Byte}

theorem checksumInv_iff : ChecksumInv s ↔ (inFrame s.st = true → s.acc = prefixSum s s.progress.toNat) := by
  cases hst : s.st <;> simp [ChecksumInv, inFrame, hst]

theorem ChecksumInv.of_not_inFrame (h : inFrame s.st = false) : ChecksumInv s :=
  checksumInv_iff.mpr fun hin => by simp [h] at hin

theorem prefixSum_congr {n : Nat} (h : ∀ a < n, pbufByte t a = pbufByte s a) : prefixSum t n = prefixSum s n := by
  induction n with
  | zero => rfl
  | succ n ih => rw [prefixSum, prefixSum, ih fun a ha => h a (by omega), h n (by omega)]

/-- ACC, PROGRESS and PBUF as they were, and no frame begins. -/
theorem ChecksumInv.of_same (h : ChecksumInv s) (hst : inFrame t.st = true → inFrame s.st = true)
    (hacc : t.acc = s.acc) (hprog : t.progress = s.progress) (hbyte : ∀ a, pbufByte t a = pbufByte s a) :
    ChecksumInv t := by
  refine checksumInv_iff.mpr fun hin => ?_
  rw [hacc, hprog, prefixSum_congr fun a _ => hbyte a]
  exact checksumInv_iff.mp h (hst hin)

/-- ACC seeded and no byte moved: where a frame starts (R201). -/
theorem ChecksumInv.of_seed (hacc : s.acc = Config.seed) (hprog : s.progress = 0#32) : ChecksumInv s := by
  refine checksumInv_iff.mpr fun _ => ?_
  rw [hacc, hprog]
  rfl

/-- One more byte: the one at PROGRESS is added to ACC, and those before it are as they were (R202). -/
theorem ChecksumInv.of_byte (h : ChecksumInv s) (hin : inFrame s.st = true)
    (hwrap : s.progress.toNat + 1 < 2 ^ 32) (hacc : t.acc = sumUpdate s.acc b)
    (hprog : t.progress = s.progress + 1#32) (hbyte : pbufByte t s.progress.toNat = b)
    (hbefore : ∀ a < s.progress.toNat, pbufByte t a = pbufByte s a) : ChecksumInv t := by
  have hnext : (s.progress + 1#32).toNat = s.progress.toNat + 1 := by bv_omega
  refine checksumInv_iff.mpr fun _ => ?_
  rw [hacc, hprog, hnext, prefixSum, hbyte, prefixSum_congr hbefore, ← checksumInv_iff.mp h hin, sumUpdate]

theorem HostMove.checksumInv (h : HostMove s t) (hs : ChecksumInv s) : ChecksumInv t := by
  have outside : t.st = .idle → ChecksumInv t := fun hst => .of_not_inFrame (by rw [hst]; rfl)
  cases h with
  | quiet => exact hs.of_same id rfl rfl fun _ => rfl
  | cancelled | startFailed => exact outside rfl
  | cleared hst | summed _ hst | stored _ _ hst => exact outside hst
  | wrote off n v hst => exact outside ((memWrite_st off v n s).trans hst)
  | sendStarted | recvStarted => exact .of_seed rfl rfl
  | tokenStarted =>
    refine .of_not_inFrame ?_
    show inFrame (if s.settings.tokenLen = 0#5 then .tokWait else .tokSend) = false
    split <;> rfl

/-- In RX_PAYLOAD a legal position has room for the byte, and PROGRESS does not wrap. -/
theorem rxPayload_room (hp : s.params.wf) (hpos : PositionInv s) (hst : s.st = .rxPayload) :
    s.progress.toNat < s.params.pbufBytes ∧ s.progress.toNat + 1 < 2 ^ 32 := by
  obtain ⟨-, -, hsize, -⟩ := hp
  simp only [PositionInv, hst] at hpos
  obtain ⟨-, -, hlt, w, -, -, hfits⟩ := hpos
  omega

theorem txPayload_no_wrap (hp : s.params.wf) (hpos : PositionInv s) (hst : s.st = .txPayload) :
    s.progress.toNat + 1 < 2 ^ 32 := by
  obtain ⟨-, -, hsize, -⟩ := hp
  simp only [PositionInv, hst] at hpos
  obtain ⟨-, -, hlt, w, -, -, hfits⟩ := hpos
  omega

theorem RxMove.checksumInv (h : RxMove b s t) (hp : s.params.wf) (hpos : PositionInv s) (hs : ChecksumInv s) :
    ChecksumInv t := by
  have stored : ∀ {u : State}, s.st = .rxPayload → u = setPbufByte s.progress.toNat b s →
      t.acc = sumUpdate s.acc b → t.progress = s.progress + 1#32 → (∀ a, pbufByte t a = pbufByte u a) →
      ChecksumInv t := by
    rintro _ hst rfl hacc hprog hbyte
    obtain ⟨hroom, hwrap⟩ := rxPayload_room hp hpos hst
    refine hs.of_byte (congrArg inFrame hst) hwrap hacc hprog ?_ fun a ha => ?_ <;>
      rw [hbyte, pbufByte_setPbufByte _ _ _ _ hroom]
    · exact if_pos rfl
    · exact if_neg (by omega)
  cases h with
  | keptBack | discarded => exact hs.of_same id rfl rfl fun _ => rfl
  | stray | headerInvalid | headerLong | finished => exact .of_not_inFrame rfl
  | emptyReady hst | payloadReady hst | synced hst =>
    exact hs.of_same (fun _ => congrArg inFrame hst) rfl rfl fun _ => rfl
  | header _ hst | crc _ hst | crcLast _ hst =>
    exact hs.of_same (fun _ => congrArg inFrame hst) rfl rfl fun _ => rfl
  | headerFits w u hst hu =>
    obtain ⟨_, rfl⟩ := hu
    exact hs.of_same (fun _ => congrArg inFrame hst) rfl rfl fun _ => rfl
  | payload u hst hu => exact stored hst hu rfl rfl fun _ => rfl
  | payloadLast u hst hu => exact stored hst hu rfl rfl fun _ => rfl

theorem TxMove.checksumInv (h : TxMove b s t) (hp : s.params.wf) (hpos : PositionInv s) (hs : ChecksumInv s) :
    ChecksumInv t := by
  have out : s.st = .txPayload → b = pbufByte s s.progress.toNat → t.acc = sumUpdate s.acc b →
      t.progress = s.progress + 1#32 → (∀ a, pbufByte t a = pbufByte s a) → ChecksumInv t := by
    intro hst hb hacc hprog hbyte
    exact hs.of_byte (congrArg inFrame hst) (txPayload_no_wrap hp hpos hst) hacc hprog ((hbyte _).trans hb.symm)
      fun a _ => hbyte a
  cases h with
  | header hst | headerLast hst | crc hst | crcLast hst =>
    exact hs.of_same (fun _ => congrArg inFrame hst) rfl rfl fun _ => rfl
  | ready hst =>
    exact hs.of_same (fun _ => congrArg inFrame hst) rfl rfl fun _ => rfl
  | payload _ hst hb | payloadPause hst hb | payloadLast hst hb => exact out hst hb rfl rfl fun _ => rfl
  | finished | tokenLast => exact .of_not_inFrame rfl
  | token hst => exact .of_not_inFrame (congrArg inFrame hst)

theorem OwnMove.checksumInv (h : OwnMove s t) (hs : ChecksumInv s) : ChecksumInv t := by
  cases h with
  | none | counted => exact hs.of_same id rfl rfl fun _ => rfl
  | expired | mismatched => exact .of_not_inFrame rfl
  | gapOver hst | drained hst | acknowledged _ hst =>
    exact hs.of_same (fun _ => congrArg inFrame hst) rfl rfl fun _ => rfl

theorem step_checksumInv (h : step s = .next t) (hp : s.params.wf) (hpos : PositionInv s) (hs : ChecksumInv s) :
    ChecksumInv t := by
  have before : ∀ {u : State}, u.st = s.st → u.acc = s.acc → u.progress = s.progress →
      (∀ a, pbufByte u a = pbufByte s a) → ChecksumInv u := fun hst => hs.of_same (by rw [hst]; exact id)
  rcases step_moves h with ⟨rest, hm⟩ | ⟨b, more, rest, -, -, hm⟩ | ⟨b, rest, -, -, hm⟩ | ⟨rest, hm⟩ |
    ⟨rest, -, rfl⟩ | ⟨rest, -, rfl⟩ | ⟨held, isOpen, rest, rfl⟩
  · exact hm.checksumInv (before rfl rfl rfl fun _ => rfl)
  · exact hm.checksumInv hp hpos (before rfl rfl rfl fun _ => rfl)
  · exact hm.checksumInv hp hpos (before rfl rfl rfl fun _ => rfl)
  · exact hm.checksumInv (before rfl rfl rfl fun _ => rfl)
  · exact .of_not_inFrame rfl
  · exact .of_not_inFrame rfl
  · exact before rfl rfl rfl fun _ => rfl

end

/-- Settles O58: by the moves, a payload byte being the one that ACC takes in. -/
theorem stepKeepsChecksum : Obligations.StepKeepsChecksum := by
  unfold Obligations.StepKeepsChecksum
  exact fun s t hp hpos hs h => step_checksumInv h hp hpos hs

/-! ### Right after reset -/

theorem inv_resetWith {p : Params} (hp : p.wf) : Inv (State.resetWith p) where
  params := hp
  memory := reset_memory p
  registers := registerInv_resetStep (s := State.resetWith p)
  status := .of_noResult ⟨rfl, rfl, rfl, rfl⟩
  position := positionInv_resetStep (s := State.resetWith p)
  checksum := .of_not_inFrame rfl

theorem default_wf : Params.default.wf := by decide

/-- Settles O59: each part at the reset values, and the defaults are a legal choice. -/
theorem resetIsSound : Obligations.ResetIsSound := by
  unfold Obligations.ResetIsSound
  exact ⟨fun p hp => inv_resetWith hp, inv_resetWith default_wf⟩

end Sys2Proof.Machine
end
